-- ==== Sys2Proof/Word.lean ====
section
/-! DEFINITION. The word types of the machine (00_scope.md R8, R9: every value is unsigned and of a stated width). -/

namespace Sys2Proof

/-- A byte: a memory cell, a general register, a timer (R20, R26, R27, R28). -/
abbrev Byte := BitVec 8

/-- A 16-bit value: an instruction word, `pc`, `I`, a stack entry (R22, R23, R25, R90). -/
abbrev Word := BitVec 16

/-- A 4-bit field: a register number, a sprite height, a key code (R91, R34). -/
abbrev Nibble := BitVec 4

/-- A 12-bit address field `NNN` (R91). -/
abbrev Addr := BitVec 12

end Sys2Proof
end

