-- ==== Sys2Proof/Decode.lean ====
section
/-! DEFINITION. The decoder (30_encoding.md R91 to R108), total on words (R103) and refusing byte strings that are too short
by name; the encoder; and the opcode map of R106 as a table. -/

namespace Sys2Proof

/-! ### The fields of a word (R91) -/

def fieldOP (w : Word) : Nibble := w.extractLsb' 12 4
def fieldX (w : Word) : Nibble := w.extractLsb' 8 4
def fieldY (w : Word) : Nibble := w.extractLsb' 4 4
def fieldN (w : Word) : Nibble := w.extractLsb' 0 4
def fieldNN (w : Word) : Byte := w.extractLsb' 0 8
def fieldNNN (w : Word) : Addr := w.extractLsb' 0 12

/-! ### The dispatch (R94 to R100, R107) -/

/-- Class 0: the sub-key is the whole word (R95, decision D1). -/
def decodeClass0 (w : Word) : Instr :=
  if w = 0x00E0#16 then .cls
  else if w = 0x00EE#16 then .ret
  else .unknown w

/-- Class 8: the sub-key is `N` (R96). -/
def decodeClass8 (w : Word) : Instr :=
  if fieldN w = 0x0#4 then .ldReg (fieldX w) (fieldY w)
  else if fieldN w = 0x1#4 then .orReg (fieldX w) (fieldY w)
  else if fieldN w = 0x2#4 then .andReg (fieldX w) (fieldY w)
  else if fieldN w = 0x3#4 then .xorReg (fieldX w) (fieldY w)
  else if fieldN w = 0x4#4 then .addReg (fieldX w) (fieldY w)
  else if fieldN w = 0x5#4 then .subReg (fieldX w) (fieldY w)
  else if fieldN w = 0x6#4 then .shr (fieldX w) (fieldY w)
  else if fieldN w = 0x7#4 then .subnReg (fieldX w) (fieldY w)
  else if fieldN w = 0xE#4 then .shl (fieldX w) (fieldY w)
  else .unknown w

/-- Class E: the sub-key is `NN` (R97). -/
def decodeClassE (w : Word) : Instr :=
  if fieldNN w = 0x9E#8 then .skp (fieldX w)
  else if fieldNN w = 0xA1#8 then .sknp (fieldX w)
  else .unknown w

/-- Class F: the sub-key is `NN` (R98). -/
def decodeClassF (w : Word) : Instr :=
  if fieldNN w = 0x07#8 then .ldVxDt (fieldX w)
  else if fieldNN w = 0x0A#8 then .ldVxK (fieldX w)
  else if fieldNN w = 0x15#8 then .ldDtVx (fieldX w)
  else if fieldNN w = 0x18#8 then .ldStVx (fieldX w)
  else if fieldNN w = 0x1E#8 then .addI (fieldX w)
  else if fieldNN w = 0x29#8 then .ldF (fieldX w)
  else if fieldNN w = 0x33#8 then .ldB (fieldX w)
  else if fieldNN w = 0x55#8 then .ldMemVx (fieldX w)
  else if fieldNN w = 0x65#8 then .ldVxMem (fieldX w)
  else .unknown w

/-- The decoder, in the order of R107: the class first, then a sub-key where the class is overloaded. -/
def decode (w : Word) : Instr :=
  if fieldOP w = 0x0#4 then decodeClass0 w
  else if fieldOP w = 0x1#4 then .jp (fieldNNN w)
  else if fieldOP w = 0x2#4 then .call (fieldNNN w)
  else if fieldOP w = 0x3#4 then .seImm (fieldX w) (fieldNN w)
  else if fieldOP w = 0x4#4 then .sneImm (fieldX w) (fieldNN w)
  else if fieldOP w = 0x5#4 then .seReg (fieldX w) (fieldY w) (fieldN w)
  else if fieldOP w = 0x6#4 then .ldImm (fieldX w) (fieldNN w)
  else if fieldOP w = 0x7#4 then .addImm (fieldX w) (fieldNN w)
  else if fieldOP w = 0x8#4 then decodeClass8 w
  else if fieldOP w = 0x9#4 then .sneReg (fieldX w) (fieldY w) (fieldN w)
  else if fieldOP w = 0xA#4 then .ldI (fieldNNN w)
  else if fieldOP w = 0xB#4 then .jpV0 (fieldNNN w)
  else if fieldOP w = 0xC#4 then .rnd (fieldX w) (fieldNN w)
  else if fieldOP w = 0xD#4 then .drw (fieldX w) (fieldY w) (fieldN w)
  else if fieldOP w = 0xE#4 then decodeClassE w
  else decodeClassF w

/-! ### Bytes (20_memory.md R63: the byte at the lower address is the high byte) -/

/-- Why a byte string gives no instruction. Every word decodes (R103), so the one reason is that bytes are missing. -/
inductive DecodeError where
  /-- fewer than two bytes -/
  | truncated
  deriving DecidableEq, Repr

/-- The two bytes of a word as memory holds them. -/
def wordBytes (w : Word) : List Byte := [w.extractLsb' 8 8, w.extractLsb' 0 8]

/-- The word of two bytes, the first at the lower address. -/
def bytesWord (hi lo : Byte) : Word := hi ++ lo

/-- One instruction off the front of a byte string, with the bytes that follow it. -/
def decodeBytes : List Byte → Except DecodeError (Instr × List Byte)
  | hi :: lo :: rest => .ok (decode (bytesWord hi lo), rest)
  | _ => .error .truncated

/-- What the decoder reads from an instruction whose bits are `w`, numbered as spec/opcode_table.json numbers them. Every
instruction is one 16-bit word, so bits above 15 leave nothing to decode. -/
def decodeTableWord (nbits w : Nat) : Option Instr :=
  if w % 2 ^ nbits < 65536 then
    match decodeBytes (wordBytes (BitVec.ofNat 16 (w % 2 ^ nbits))) with
    | .ok (i, _) => some i
    | .error _ => none
  else none

/-! ### The encoder (the formats of R92, the fixed bits of R106) -/

def encode : Instr → Word
  | .cls => 0x00E0#16
  | .ret => 0x00EE#16
  | .jp nnn => 0x1#4 ++ nnn
  | .call nnn => 0x2#4 ++ nnn
  | .seImm x nn => 0x3#4 ++ x ++ nn
  | .sneImm x nn => 0x4#4 ++ x ++ nn
  | .seReg x y n => 0x5#4 ++ x ++ y ++ n
  | .ldImm x nn => 0x6#4 ++ x ++ nn
  | .addImm x nn => 0x7#4 ++ x ++ nn
  | .ldReg x y => 0x8#4 ++ x ++ y ++ 0x0#4
  | .orReg x y => 0x8#4 ++ x ++ y ++ 0x1#4
  | .andReg x y => 0x8#4 ++ x ++ y ++ 0x2#4
  | .xorReg x y => 0x8#4 ++ x ++ y ++ 0x3#4
  | .addReg x y => 0x8#4 ++ x ++ y ++ 0x4#4
  | .subReg x y => 0x8#4 ++ x ++ y ++ 0x5#4
  | .shr x y => 0x8#4 ++ x ++ y ++ 0x6#4
  | .subnReg x y => 0x8#4 ++ x ++ y ++ 0x7#4
  | .shl x y => 0x8#4 ++ x ++ y ++ 0xE#4
  | .sneReg x y n => 0x9#4 ++ x ++ y ++ n
  | .ldI nnn => 0xA#4 ++ nnn
  | .jpV0 nnn => 0xB#4 ++ nnn
  | .rnd x nn => 0xC#4 ++ x ++ nn
  | .drw x y n => 0xD#4 ++ x ++ y ++ n
  | .skp x => 0xE#4 ++ x ++ 0x9E#8
  | .sknp x => 0xE#4 ++ x ++ 0xA1#8
  | .ldVxDt x => 0xF#4 ++ x ++ 0x07#8
  | .ldVxK x => 0xF#4 ++ x ++ 0x0A#8
  | .ldDtVx x => 0xF#4 ++ x ++ 0x15#8
  | .ldStVx x => 0xF#4 ++ x ++ 0x18#8
  | .addI x => 0xF#4 ++ x ++ 0x1E#8
  | .ldF x => 0xF#4 ++ x ++ 0x29#8
  | .ldB x => 0xF#4 ++ x ++ 0x33#8
  | .ldMemVx x => 0xF#4 ++ x ++ 0x55#8
  | .ldVxMem x => 0xF#4 ++ x ++ 0x65#8
  | .unknown w => w

/-! ### The opcode map (R106): match and mask of the 34 rows, in the table's order -/

def opcodeMapLow : List (Word × Word) :=
  [(0x00E0#16, 0xFFFF#16), (0x00EE#16, 0xFFFF#16), (0x1000#16, 0xF000#16), (0x2000#16, 0xF000#16),
   (0x3000#16, 0xF000#16), (0x4000#16, 0xF000#16), (0x5000#16, 0xF000#16), (0x6000#16, 0xF000#16),
   (0x7000#16, 0xF000#16)]

def opcodeMap8 : List (Word × Word) :=
  [(0x8000#16, 0xF00F#16), (0x8001#16, 0xF00F#16), (0x8002#16, 0xF00F#16), (0x8003#16, 0xF00F#16),
   (0x8004#16, 0xF00F#16), (0x8005#16, 0xF00F#16), (0x8006#16, 0xF00F#16), (0x8007#16, 0xF00F#16),
   (0x800E#16, 0xF00F#16)]

def opcodeMapHigh : List (Word × Word) :=
  [(0x9000#16, 0xF000#16), (0xA000#16, 0xF000#16), (0xB000#16, 0xF000#16), (0xC000#16, 0xF000#16),
   (0xD000#16, 0xF000#16), (0xE09E#16, 0xF0FF#16), (0xE0A1#16, 0xF0FF#16)]

def opcodeMapF : List (Word × Word) :=
  [(0xF007#16, 0xF0FF#16), (0xF00A#16, 0xF0FF#16), (0xF015#16, 0xF0FF#16), (0xF018#16, 0xF0FF#16),
   (0xF01E#16, 0xF0FF#16), (0xF029#16, 0xF0FF#16), (0xF033#16, 0xF0FF#16), (0xF055#16, 0xF0FF#16),
   (0xF065#16, 0xF0FF#16)]

/-- The 34 pairs (match, mask) of R106. -/
def opcodeMap : List (Word × Word) := opcodeMapLow ++ opcodeMap8 ++ opcodeMapHigh ++ opcodeMapF

/-- The place of an instruction's row in `opcodeMap`, counted from 0; 34 is the default row of opcode_table.json. -/
def Instr.row : Instr → Nat
  | .cls => 0
  | .ret => 1
  | .jp _ => 2
  | .call _ => 3
  | .seImm _ _ => 4
  | .sneImm _ _ => 5
  | .seReg _ _ _ => 6
  | .ldImm _ _ => 7
  | .addImm _ _ => 8
  | .ldReg _ _ => 9
  | .orReg _ _ => 10
  | .andReg _ _ => 11
  | .xorReg _ _ => 12
  | .addReg _ _ => 13
  | .subReg _ _ => 14
  | .shr _ _ => 15
  | .subnReg _ _ => 16
  | .shl _ _ => 17
  | .sneReg _ _ _ => 18
  | .ldI _ => 19
  | .jpV0 _ => 20
  | .rnd _ _ => 21
  | .drw _ _ _ => 22
  | .skp _ => 23
  | .sknp _ => 24
  | .ldVxDt _ => 25
  | .ldVxK _ => 26
  | .ldDtVx _ => 27
  | .ldStVx _ => 28
  | .addI _ => 29
  | .ldF _ => 30
  | .ldB _ => 31
  | .ldMemVx _ => 32
  | .ldVxMem _ => 33
  | .unknown _ => 34

/-- The procedure of R107's last sentence: the first row with `w and mask = match`, else the default row 34. -/
def firstRow (w : Word) : Nat := opcodeMap.findIdx fun r => w &&& r.2 == r.1

end Sys2Proof
end

