-- ==== Sys2Proof/Config.lean ====
section
/-! DEFINITION. What is fixed for a run (00_scope.md R5 to R7, 10_state.md R31, R38) and the free values. -/

namespace Sys2Proof

/-- The fixed constants of R5 that more than one definition uses. -/
def Config.memSize : Nat := 4096
/-- Address of glyph 0 (R5). -/
def Config.fontBase : Nat := 0x050
/-- Load address of the ROM and reset value of `pc` (R5). -/
def Config.progBase : Nat := 0x200
/-- Most ROM bytes that are loaded (R5, R46). -/
def Config.progCap : Nat := 3584

/-- The configuration record as the host presents it with a reset (R320): a field is `none` when the host does not supply it
(R50). -/
structure CfgRecord where
  /-- `IPS` -/
  ips : Option Nat
  /-- `SHIFT_VY` -/
  shiftVy : Option Bool
  /-- `JUMP_VX` -/
  jumpVx : Option Bool
  /-- `MEM_INC` -/
  memInc : Option Bool
  deriving DecidableEq, Repr

/-- The configuration of R6 that the core holds, latched at reset with every field filled in (R31, R50). It is a field of State, so that a statement about every
state covers every setting of the toggles. -/
structure Cfg where
  /-- instruction cycles a second; legal when positive (R50) -/
  ips : Nat
  /-- 8XY6 and 8XYE shift `V[Y]` when true, `V[X]` when false -/
  shiftVy : Bool
  /-- BNNN adds `V[X]` when true, `V[0]` when false -/
  jumpVx : Bool
  /-- FX55 and FX65 add X + 1 to `I` when true -/
  memInc : Bool
  deriving DecidableEq, Repr

/-- The two parameters of R7 that last for a run. -/
structure Params where
  /-- FONT: 16 glyphs of 5 bytes -/
  font : Vector Byte 80
  /-- HALT_ON_FAULT -/
  haltOnFault : Bool
  deriving DecidableEq, Repr

/-- The random byte of CXNN, a FREE VALUE (43_alu.md R182, decision D22; log 7): nothing constrains it. The argument is
State's counter of draws, so that every execution of CXNN draws afresh. -/
opaque Config.rndByte : Nat → Byte

end Sys2Proof
end

