-- ==== Sys2Proof/Machine/Parameters.lean ====
section
/-! DEFINITION. The default values of the parameters (00_scope.md R6, R7; 10_state.md R45). -/

namespace Sys2Proof.Machine

/-- Glyphs 0 to 7 of the default FONT, top row first (R45; PRESUMED, log 2). -/
def fontLow : List Byte :=
  [0xF0, 0x90, 0x90, 0x90, 0xF0] ++ [0x20, 0x60, 0x20, 0x20, 0x70] ++
  [0xF0, 0x10, 0xF0, 0x80, 0xF0] ++ [0xF0, 0x10, 0xF0, 0x10, 0xF0] ++
  [0x90, 0x90, 0xF0, 0x10, 0x10] ++ [0xF0, 0x80, 0xF0, 0x10, 0xF0] ++
  [0xF0, 0x80, 0xF0, 0x90, 0xF0] ++ [0xF0, 0x10, 0x20, 0x40, 0x40]

/-- Glyphs 8 to F of the default FONT. -/
def fontHigh : List Byte :=
  [0xF0, 0x90, 0xF0, 0x90, 0xF0] ++ [0xF0, 0x90, 0xF0, 0x10, 0xF0] ++
  [0xF0, 0x90, 0xF0, 0x90, 0x90] ++ [0xE0, 0x90, 0xE0, 0x90, 0xE0] ++
  [0xF0, 0x80, 0x80, 0x80, 0xF0] ++ [0xE0, 0x90, 0x90, 0x90, 0xE0] ++
  [0xF0, 0x80, 0xF0, 0x80, 0xF0] ++ [0xF0, 0x80, 0xF0, 0x80, 0x80]

/-- The 80 bytes of the default FONT. -/
def fontBytes : List Byte := fontLow ++ fontHigh

/-- The default FONT as the parameter of R7 holds it. -/
def defaultFont : Vector Byte 80 := Vector.ofFn fun j => fontBytes.getD j.val 0

/-- FONT and HALT_ON_FAULT at their defaults (R7; HALT_ON_FAULT is decision D8, log 21). -/
def defaultParams : Params := { font := defaultFont, haltOnFault := true }

/-- The configuration at its defaults (R6): 700 and `JUMP_VX` false are the source's, `SHIFT_VY` and `MEM_INC` true are
decision D20 (PRESUMED, log 3). -/
def defaultCfg : Cfg := { ips := 700, shiftVy := true, jumpVx := false, memInc := true }

end Sys2Proof.Machine
end

