-- ==== Sys2Proof/Machine/Memory.lean ====
section
/-! DEFINITION. Memory: 4096 bytes at addresses 0x000 to 0xFFF (20_memory.md R60 to R62, R69), as a list of cells in one
canonical form (log 14). -/

namespace Sys2Proof.Machine

abbrev Memory := List Host.Cell

/-- What an unlisted address reads as: the contents after a reset with the default FONT and an empty ROM (R45, R46, R69). -/
def Memory.initial (a : Nat) : Byte :=
  if Config.fontBase ≤ a ∧ a < Config.fontBase + 80 then fontBytes.getD (a - Config.fontBase) 0 else 0

/-- Address decoder: an address is valid exactly when it is at most 0xFFF (R61). -/
def validAddress (a : Nat) : Bool := decide (a ≤ 0xFFF)

/-- `MemRead(a, 1)` (R62). -/
def Memory.read : Memory → Nat → Byte
  | [], a => Memory.initial a
  | (k, b) :: m, a => if k = a then b else Memory.read m a

/-- The cell that records byte `b` at `a`: none where `b` is what an unlisted address reads as. -/
def Memory.cell (a : Nat) (b : Byte) : Memory := if b = Memory.initial a then [] else [(a, b)]

/-- Puts byte `b` at `a`, keeping addresses in rising order. -/
def Memory.put : Memory → Nat → Byte → Memory
  | [], a, b => Memory.cell a b
  | (k, c) :: m, a, b =>
    if a < k then Memory.cell a b ++ (k, c) :: m
    else if a = k then Memory.cell a b ++ m
    else (k, c) :: Memory.put m a b

/-- `MemWrite(a, 1, b)` (R62). It is never invoked with an invalid address, because every range is checked first (R206); such
a write would select nothing (R61, log 15). -/
def Memory.write (m : Memory) (a : Nat) (b : Byte) : Memory :=
  if validAddress a then Memory.put m a b else m

/-- Single-byte writes at ascending addresses from `a` (R64). -/
def Memory.writeBytes : Memory → Nat → List Byte → Memory
  | m, _, [] => m
  | m, a, b :: bs => Memory.writeBytes (Memory.write m a b) (a + 1) bs

/-- Every listed address is at least `lo`, rising, valid, and its byte is not the unlisted one. -/
def Memory.wfFrom : Nat → Memory → Bool
  | _, [] => true
  | lo, (k, b) :: m => decide (lo ≤ k) && validAddress k && decide (b ≠ Memory.initial k) && Memory.wfFrom (k + 1) m

/-- The canonical form. -/
def Memory.wf (m : Memory) : Bool := Memory.wfFrom 0 m

end Sys2Proof.Machine
end

