-- ==== Sys2Proof/Machine/State.lean ====
section
/-! DEFINITION. The state of the machine as plain data (10_state.md part 1, the ports of part 2 that a step reads or drives),
the reasons a step can stop, and the state after reset (part 4). -/

namespace Sys2Proof.Machine

/-- The framebuffer: 32 rows of 64 pixels, row 0 at the top; in each row the most significant bit is column 0 (R29). -/
abbrev Frame := Vector (BitVec 64) 32

/-- The key-wait states of R30. -/
inductive KeyWait where
  | idle
  | awaitPress
  | awaitRelease
  deriving DecidableEq, Repr

/-- The closed set of cycle outcomes (R12), in the order of their codes 0 to 4 (R280). A fault is any but `ok`. -/
inductive CycleOutcome where
  | ok
  | stackOverflow
  | stackUnderflow
  | endOfMemory
  | memoryOutOfBounds
  deriving DecidableEq, Repr

/-- What an agent does in one step (R120). The order in which the agents move is State's `schedule` (log 5). -/
inductive AgentStep where
  /-- one scheduler pass of the core, at the present time (R129 steps 2 and 3) -/
  | corePass
  /-- one timer tick (R127) -/
  | tick
  /-- the host changes the key inputs, to values that satisfy its contract (R128, R34; log 8) -/
  | keys (keyDown : BitVec 16) (lastKey : Option Nibble)
  /-- time passes: `num / (denPred + 1)` seconds (R36, log 6) -/
  | elapse (num denPred : Nat)
  /-- the host raises `quit` (R134) -/
  | quit
  /-- the host resets the machine with a ROM and a configuration record, of which it may leave fields out (R320, R50) -/
  | reset (rom : List Byte) (record : CfgRecord)
  deriving DecidableEq, Repr

/-- An instant: `num / (denPred + 1)` seconds after the last reset (log 6). -/
structure Instant where
  num : Nat
  denPred : Nat
  deriving DecidableEq, Repr

structure State where
  /-- `V[0]` to `V[15]` (R20, R21) -/
  v : Vector Byte 16
  /-- `I` (R22) -/
  i : Word
  /-- `pc` (R23) -/
  pc : Word
  /-- `stack[0..15]` (R25) -/
  stack : Vector Word 16
  /-- entries of the stack in use, 0 to 16 (R25) -/
  sp : Fin 17
  /-- `DT` (R26) -/
  dt : Byte
  /-- `ST` (R27) -/
  st : Byte
  /-- `mem` (R28) -/
  mem : Memory
  /-- `fb` (R29) -/
  fb : Frame
  /-- `kw_state` (R30) -/
  kwState : KeyWait
  /-- `kw_key` (R30) -/
  kwKey : Nibble
  /-- `halted` (R32) -/
  halted : Bool
  /-- `fault_code`: `ok` is code 0, no fault yet (R32) -/
  faultCode : CycleOutcome
  /-- `fault_pc` (R32) -/
  faultPc : Word
  /-- `fault_addr` (R32) -/
  faultAddr : Word
  /-- `cfg`, latched at reset (R31) -/
  cfg : Cfg
  /-- FONT and HALT_ON_FAULT, fixed for a run (R7, R38) -/
  par : Params
  /-- `next_due`: how many instruction periods of 1/IPS second after the reset the next cycle falls due (R36, R129, log 6) -/
  nextDue : Nat
  /-- `now` (R36, log 6) -/
  now : Instant
  /-- input `key_down` (R34) -/
  keyDown : BitVec 16
  /-- input `last_key` (R34) -/
  lastKey : Option Nibble
  /-- input `quit` (R36, R134) -/
  quit : Bool
  /-- output `redraw` of the latest cycle (R37, R126) -/
  redraw : Bool
  /-- output `outcome` of the latest cycle (R12, R37) -/
  outcome : CycleOutcome
  /-- output `fb_out`: the frame handed over with the latest redraw strobe, none before the first (R37, R47, R227) -/
  fbOut : Option Frame
  /-- the model's own: how many random bytes have been drawn (log 7) -/
  rndDraws : Nat
  /-- the model's own: what the agents do next, first entry first; when it is empty the core moves (log 5) -/
  schedule : List AgentStep
  deriving DecidableEq, Repr

/-- Reasons for which the machine stops with a fault: NONE, so the type has no constructor. The four faults of R280 are
cycle outcomes whose entry R288 describes, and the model takes them as next states (`takeFault`; log 12). Safe: nothing stops
where the hardware goes on. -/
inductive Fault
  deriving DecidableEq, Repr

/-- Reasons for which a step has no meaning. -/
inductive Refusal where
  /-- An instruction with no meaning yet; raised only by an arm of exec, and at present by none. Safe. -/
  | notModelled (mnemonic : String)
  /-- A configuration with `IPS < 1`: "the core is not defined for it and a model refuses it" (R50). Raised by a reset with such
  a record and by a scheduler pass over one. Safe: the hardware has no behaviour there. -/
  | illegalConfiguration
  /-- Key inputs that break the host's contract of R34, which R128 does not let the host present and
  93_implementation_defined.md U25 treats as refuse, "outside the model's host" (log 8). Raised by a key step that presents such
  a pair. Safe: the machine has no such step. -/
  | keyContractBroken
  deriving DecidableEq, Repr

/-- The machine right after reset (10_state.md R40 to R51, R54), with the default parameters of R6 and R7 and no ROM (log 4). -/
def State.reset : State where
  v := Vector.replicate 16 0
  i := 0
  pc := 0x200
  stack := Vector.replicate 16 0
  sp := 0
  dt := 0
  st := 0
  mem := []
  fb := Vector.replicate 32 0
  kwState := .idle
  kwKey := 0
  halted := false
  faultCode := .ok
  faultPc := 0
  faultAddr := 0
  cfg := defaultCfg
  par := defaultParams
  nextDue := 0
  now := { num := 0, denPred := 0 }
  keyDown := 0
  lastKey := none
  quit := false
  redraw := false
  outcome := .ok
  fbOut := none
  rndDraws := 0
  schedule := []

end Sys2Proof.Machine
end

