-- ==== Sys2Proof/Machine/Ops.lean ====
section
/-! DEFINITION. The named operations over registers, stack, memory and display that every meaning shares, the range check,
the one operation that takes a fault, the timer tick and the reset. -/

namespace Sys2Proof.Machine

/-- What running an instruction answers. -/
abbrev Result := Host.Outcome State Fault Refusal

/-! ### Registers (R20, R22, R23) -/

/-- `V[x]`. -/
def State.getV (s : State) (x : Nibble) : Byte := s.v[x.toNat]'x.isLt

/-- `V[x] <- b`. -/
def State.setV (s : State) (x : Nibble) (b : Byte) : State := { s with v := s.v.set x.toNat b x.isLt }

/-- `I <- w`. -/
def State.setI (s : State) (w : Word) : State := { s with i := w }

/-- `pc <- w`. -/
def State.setPc (s : State) (w : Word) : State := { s with pc := w }

/-- `skip`: `pc <- pc + 2` (42_skips.md R160). -/
def State.skip (s : State) : State := s.setPc (s.pc + 2)

/-- A conditional skip: nothing at all changes when the condition is false (R160). -/
def State.skipIf (s : State) (c : Bool) : State := if c then s.skip else s

/-- The hold of FX0A: `pc <- pc - 2` (R14, 46_keypad.md R243). -/
def State.hold (s : State) : State := s.setPc (s.pc - 2)

/-! ### The call stack (R25) -/

/-- `push(w)`, defined only when `sp < 16`. -/
def State.push (s : State) (w : Word) (h : s.sp.val < 16) : State :=
  { s with stack := s.stack.set s.sp.val w h, sp := ⟨s.sp.val + 1, Nat.succ_lt_succ h⟩ }

/-- The value `pop()` returns, defined only when `sp > 0`. -/
def State.top (s : State) (h : 0 < s.sp.val) : Word :=
  s.stack[s.sp.val - 1]'(Nat.lt_of_lt_of_le (Nat.sub_lt h Nat.one_pos) (Nat.le_of_lt_succ s.sp.isLt))

/-- The state after `pop()`: the entry stays in the store (R150). -/
def State.drop (s : State) : State :=
  { s with sp := ⟨s.sp.val - 1, Nat.lt_of_le_of_lt (Nat.sub_le _ _) s.sp.isLt⟩ }

/-! ### Memory (20_memory.md R62 to R64) -/

/-- The byte at address `a`. -/
def State.readByte (s : State) (a : Nat) : Byte := Memory.read s.mem a

/-- Stores bytes at ascending addresses from `a`. -/
def State.writeBytes (s : State) (a : Nat) (bs : List Byte) : State :=
  { s with mem := Memory.writeBytes s.mem a bs }

/-- `MemRead(a, 2)`, big-endian (R63); used by the fetch alone. -/
def State.readWord (s : State) (a : Nat) : Word := bytesWord (s.readByte a) (s.readByte (a + 1))

/-! ### Faults (60_exceptions.md R280, R288) -/

/-- The numeric code of an outcome (R280). -/
def CycleOutcome.code : CycleOutcome → Nat
  | .ok => 0
  | .stackOverflow => 1
  | .stackUnderflow => 2
  | .endOfMemory => 3
  | .memoryOutOfBounds => 4

/-- Fault entry (R288): the latch is written when it is clear, the outcome is signalled, and the core halts when HALT_ON_FAULT.
Nothing else changes, and control goes nowhere. There is no return from a fault (R290): only `resetMachine` leaves the halted
state. -/
def takeFault (f : CycleOutcome) (faultPc faultAddr : Word) (s : State) : State :=
  if s.faultCode = .ok then
    { s with faultCode := f, faultPc := faultPc, faultAddr := faultAddr, outcome := f,
             halted := s.halted || s.par.haltOnFault }
  else { s with outcome := f, halted := s.halted || s.par.haltOnFault }

/-- `raise <f>(pc - 2)` inside an instruction: `pc` is the post-fetch pc, so `pc - 2` is the instruction's address. -/
def raise (f : CycleOutcome) (faultAddr : Word) (s : State) : State := takeFault f (s.pc - 2) faultAddr s

/-- `CheckRange(a, n)` (44_index_memory.md R206): the lowest invalid address of the `n` bytes from `a`, if there is one. -/
def checkRange (a n : Nat) : Option Nat := if 0 < n ∧ 0xFFF < a + n - 1 then some (max a 0x1000) else none

/-- Runs `k` when the `n` bytes from `I` are all valid; otherwise the instruction does nothing but raise
`MemoryOutOfBounds` (R206, R284). -/
def withRange (n : Nat) (s : State) (k : State) : Result :=
  match checkRange s.i.toNat n with
  | some bad => .next (raise .memoryOutOfBounds (BitVec.ofNat 16 bad) s)
  | none => .next k

/-! ### Display (R29, R126, R227) -/

/-- Pixel `fb[y][x]`: bit `63 - x` of row mask `y`. -/
def Frame.pixel (fb : Frame) (y : Fin 32) (x : Nat) : Bool := fb[y].getMsbD x

/-- `redraw <- 1`, and the host receives the framebuffer by value. -/
def State.present (s : State) : State := { s with redraw := true, fbOut := some s.fb }

/-! ### The key inputs (R34) -/

/-- The host's contract on the pair it presents: `last_key` is none exactly when no key is down, and else names a key that is
down. -/
def keysAgree (keyDown : BitVec 16) (lastKey : Option Nibble) : Bool :=
  match lastKey with
  | none => keyDown == 0
  | some k => keyDown.getLsbD k.toNat

/-! ### The timer tick (40_cycle.md R127) -/

/-- One count down, stopping at zero. -/
def countDown (t : Byte) : Byte := if t = 0 then 0 else t - 1

/-- One tick of the 60 Hz agent. -/
def State.tick60 (s : State) : State := { s with dt := countDown s.dt, st := countDown s.st }

/-! ### Reset (10_state.md R40 to R51, 70_reset_and_hazards.md R321) -/

/-- The configuration that a reset latches: a field the host does not supply takes its default of R6 (R50, R321 step 7). -/
def latchCfg (r : CfgRecord) : Cfg :=
  { ips := r.ips.getD defaultCfg.ips
    shiftVy := r.shiftVy.getD defaultCfg.shiftVy
    jumpVx := r.jumpVx.getD defaultCfg.jumpVx
    memInc := r.memInc.getD defaultCfg.memInc }

/-- Memory after reset: zeroed, then FONT at 0x050, then at most 3584 bytes of the ROM at 0x200. -/
def resetMemory (font : Vector Byte 80) (rom : List Byte) : Memory :=
  Memory.writeBytes (Memory.writeBytes [] Config.fontBase font.toList) Config.progBase (rom.take Config.progCap)

/-- The machine right after a reset with parameters `par`, latched configuration `cfg` and program image `rom`. -/
def powerOn (par : Params) (cfg : Cfg) (rom : List Byte) : State :=
  { State.reset with mem := resetMemory par.font rom, cfg := cfg, par := par }

/-- A reset during a run (R53, R320), with the configuration already filled in. All state of the machine is rebuilt; FONT and HALT_ON_FAULT are fixed for the run, and the
inputs and the model's own fields are the host's, so they stay. -/
def resetMachine (rom : List Byte) (cfg : Cfg) (s : State) : State :=
  { powerOn s.par cfg rom with
      keyDown := s.keyDown, lastKey := s.lastKey, rndDraws := s.rndDraws, schedule := s.schedule }

end Sys2Proof.Machine
end

