-- ==== Sys2Proof/Machine/Operands.lean ====
section
/-! DEFINITION. The operand forms (30_encoding.md R93): registers, immediates, the toggled register choices, the key a
register names, and the runs of registers and bytes of FX33, FX55 and FX65. -/

namespace Sys2Proof.Machine

/-- `NNN` as a 16-bit value: zero-extended, neither scaled nor shifted (R93). -/
def addrOperand (nnn : Addr) : Word := nnn.setWidth 16

/-- A register's byte as a 16-bit value: zero-extended (R9). -/
def byteOperand (b : Byte) : Word := b.setWidth 16

/-- The value 8XY6 and 8XYE shift: `V[Y]` when `SHIFT_VY`, else `V[X]` (R179, R181). -/
def shiftSource (x y : Nibble) (s : State) : Byte := if s.cfg.shiftVy then s.getV y else s.getV x

/-- The register BNNN adds: `V[X]` with `X` the top nibble of its own `NNN` when `JUMP_VX`, else `V[0]` (R153). -/
def jumpRegister (nnn : Addr) (s : State) : Nibble := if s.cfg.jumpVx then nnn.extractLsb' 8 4 else 0

/-- `KeyDown(k)` (46_keypad.md R240): a value above 15 names no key and is not reduced. -/
def keyIsDown (k : Byte) (s : State) : Bool := decide (k.toNat ≤ 15) && s.keyDown.getLsbD k.toNat

/-- The three decimal digits of a byte, hundreds first (R203). -/
def bcdDigits (b : Byte) : List Byte :=
  [BitVec.ofNat 8 (b.toNat / 100), BitVec.ofNat 8 (b.toNat / 10 % 10), BitVec.ofNat 8 (b.toNat % 10)]

/-- `V[0]` to `V[x]`, the bytes FX55 stores (R204). -/
def firstRegisters (x : Nibble) (s : State) : List Byte := s.v.toList.take (x.toNat + 1)

/-- `V[j] <- mem[I + j]` for `j` from 0 to `x` (R205). -/
def loadRegisters (x : Nibble) (s : State) : State :=
  { s with v := Vector.ofFn fun j => if j.val ≤ x.toNat then s.readByte (s.i.toNat + j.val) else s.v[j] }

/-- The optional advance of FX55 and FX65: `I <- I + X + 1` when `MEM_INC` (R204, R205). -/
def advanceI (x : Nibble) (s : State) : State :=
  if s.cfg.memInc then s.setI (s.i + BitVec.ofNat 16 (x.toNat + 1)) else s

end Sys2Proof.Machine
end

