-- ==== Sys2Proof/Machine/Flags.lean ====
section
/-! DEFINITION. Every flag the machine computes (43_alu.md R170, R184; 45_display.md R224) and the order in which result and
flag are written. -/

namespace Sys2Proof.Machine

/-- A flag as the byte VF holds: 0x00 or 0x01 (R170). -/
def flagByte (f : Bool) : Byte := if f then 1 else 0

/-- Carry out of 8 bits (R177). -/
def carryOut (a b : Byte) : Bool := decide (256 ≤ a.toNat + b.toNat)

/-- No borrow in `a - b`; equal operands do not borrow (R178, R184). -/
def noBorrow (a b : Byte) : Bool := decide (b.toNat ≤ a.toNat)

/-- The bit a shift right by one shifts out (R179). -/
def shiftedOutRight (b : Byte) : Bool := b.getLsbD 0

/-- The bit a shift left by one shifts out (R181). -/
def shiftedOutLeft (b : Byte) : Bool := b.getLsbD 7

/-- `VF <- f`. -/
def State.setFlag (s : State) (f : Bool) : State := s.setV 0xF#4 (flagByte f)

/-- The result to `V[x]` first, then the flag to VF, so that VF ends as the flag when `x` is 0xF (R170). -/
def setResultThenFlag (x : Nibble) (r : Byte) (f : Bool) (s : State) : State := (s.setV x r).setFlag f

/-- Collision (R224): some row has a pixel that is on before the XOR with its mask and off after it. -/
def collision (fb : Frame) (mask : Nat → BitVec 64) : Bool :=
  (List.finRange 32).any fun y => fb[y] &&& ~~~(fb[y] ^^^ mask y.val) != 0

end Sys2Proof.Machine
end

