-- ==== Sys2Proof/Machine/Alu.lean ====
section
/-! DEFINITION. 6XNN, 7XNN, 8XY0 to 8XY7, 8XYE, CXNN (43_alu.md). -/

namespace Sys2Proof.Machine

/-- 6XNN (R171). -/
def execLdImm (x : Nibble) (nn : Byte) (s : State) : Result := .next (s.setV x nn)

/-- 7XNN (R172): modulo 256, no flag. -/
def execAddImm (x : Nibble) (nn : Byte) (s : State) : Result := .next (s.setV x (s.getV x + nn))

/-- 8XY0 (R173). -/
def execLdReg (x y : Nibble) (s : State) : Result := .next (s.setV x (s.getV y))

/-- 8XY1 (R174): VF is left alone (decision D11). -/
def execOrReg (x y : Nibble) (s : State) : Result := .next (s.setV x (s.getV x ||| s.getV y))

/-- 8XY2 (R175). -/
def execAndReg (x y : Nibble) (s : State) : Result := .next (s.setV x (s.getV x &&& s.getV y))

/-- 8XY3 (R176). -/
def execXorReg (x y : Nibble) (s : State) : Result := .next (s.setV x (s.getV x ^^^ s.getV y))

/-- 8XY4 (R177). -/
def execAddReg (x y : Nibble) (s : State) : Result :=
  .next (setResultThenFlag x (s.getV x + s.getV y) (carryOut (s.getV x) (s.getV y)) s)

/-- 8XY5 (R178). -/
def execSubReg (x y : Nibble) (s : State) : Result :=
  .next (setResultThenFlag x (s.getV x - s.getV y) (noBorrow (s.getV x) (s.getV y)) s)

/-- 8XY6 (R179). -/
def execShr (x y : Nibble) (s : State) : Result :=
  .next (setResultThenFlag x (shiftSource x y s >>> 1) (shiftedOutRight (shiftSource x y s)) s)

/-- 8XY7 (R180). -/
def execSubnReg (x y : Nibble) (s : State) : Result :=
  .next (setResultThenFlag x (s.getV y - s.getV x) (noBorrow (s.getV y) (s.getV x)) s)

/-- 8XYE (R181). -/
def execShl (x y : Nibble) (s : State) : Result :=
  .next (setResultThenFlag x (shiftSource x y s <<< 1) (shiftedOutLeft (shiftSource x y s)) s)

/-- CXNN (R182): a fresh free byte each time (log 7). -/
def execRnd (x : Nibble) (nn : Byte) (s : State) : Result :=
  .next { s.setV x (Config.rndByte s.rndDraws &&& nn) with rndDraws := s.rndDraws + 1 }

end Sys2Proof.Machine
end

