-- ==== Sys2Proof/Machine/ControlFlow.lean ====
section
/-! DEFINITION. 00EE, 1NNN, 2NNN, BNNN (41_control_flow.md). On entry `pc` is the post-fetch pc (R10). -/

namespace Sys2Proof.Machine

/-- 00EE (R150, R282). -/
def execRet (s : State) : Result :=
  if h : 0 < s.sp.val then .next (s.drop.setPc (s.top h)) else .next (raise .stackUnderflow 0 s)

/-- 1NNN (R151). -/
def execJp (nnn : Addr) (s : State) : Result := .next (s.setPc (addrOperand nnn))

/-- 2NNN (R152, R281). -/
def execCall (nnn : Addr) (s : State) : Result :=
  if h : s.sp.val < 16 then .next ((s.push s.pc h).setPc (addrOperand nnn)) else .next (raise .stackOverflow 0 s)

/-- BNNN (R153): the sum is not masked. -/
def execJpV0 (nnn : Addr) (s : State) : Result :=
  .next (s.setPc (addrOperand nnn + byteOperand (s.getV (jumpRegister nnn s))))

end Sys2Proof.Machine
end

