-- ==== Sys2Proof/Machine/Display.lean ====
section
/-! DEFINITION. 00E0 and DXYN, the XOR-blit and collision unit (45_display.md), over rows of 64 pixels. -/

namespace Sys2Proof.Machine

/-- 00E0 (R220). -/
def execCls (s : State) : Result := .next { s with fb := Vector.replicate 32 0 }.present

/-- The rows of a sprite of height `n` that are not clipped at the bottom (R221). -/
def spriteRows (n : Nibble) (y0 : Nat) : Nat := min n.toNat (32 - y0)

/-- A sprite byte as the pixels it toggles in a row: bit 7 at column `x0`, nothing right of column 63 (R222, R223). -/
def rowMask (b : Byte) (x0 : Nat) : BitVec 64 := (b.setWidth 64 <<< 56) >>> x0

/-- The pixels a sprite of `rows` rows at (`x0`, `y0`) toggles in row `y`: its row `r` is the byte at `I + r` (R64). -/
def spriteMask (s : State) (x0 y0 rows y : Nat) : BitVec 64 :=
  if y0 ≤ y ∧ y < y0 + rows then rowMask (s.readByte (s.i.toNat + (y - y0))) x0 else 0

/-- XORs a mask onto each row. -/
def xorRows (fb : Frame) (mask : Nat → BitVec 64) : Frame := Vector.ofFn fun y => fb[y] ^^^ mask y.val

/-- The XOR-blit: pixels, then VF, then the redraw strobe (R221, R224). -/
def drawSprite (s : State) (mask : Nat → BitVec 64) : State :=
  State.present { s.setFlag (collision s.fb mask) with fb := xorRows s.fb mask }

/-- DXYN (R221): the start column is `V[X] mod 64` and the start row `V[Y] mod 32`, both fixed once from the registers as they
were at the start of the cycle (R223). -/
def execDrw (x y n : Nibble) (s : State) : Result :=
  withRange (spriteRows n ((s.getV y).toNat % 32)) s
    (drawSprite s (spriteMask s ((s.getV x).toNat % 64) ((s.getV y).toNat % 32) (spriteRows n ((s.getV y).toNat % 32))))

end Sys2Proof.Machine
end

