-- ==== Sys2Proof/Machine/Index.lean ====
section
/-! DEFINITION. ANNN, FX1E, FX29, FX33, FX55, FX65 (44_index_memory.md). -/

namespace Sys2Proof.Machine

/-- ANNN (R200). -/
def execLdI (nnn : Addr) (s : State) : Result := .next (s.setI (addrOperand nnn))

/-- FX1E (R201): modulo 65536, no flag. -/
def execAddI (x : Nibble) (s : State) : Result := .next (s.setI (s.i + byteOperand (s.getV x)))

/-- FX29 (R202): the whole byte enters the product. -/
def execLdF (x : Nibble) (s : State) : Result :=
  .next (s.setI (BitVec.ofNat 16 (Config.fontBase + 5 * (s.getV x).toNat)))

/-- FX33 (R203). -/
def execLdB (x : Nibble) (s : State) : Result :=
  withRange 3 s (s.writeBytes s.i.toNat (bcdDigits (s.getV x)))

/-- FX55 (R204). -/
def execLdMemVx (x : Nibble) (s : State) : Result :=
  withRange (x.toNat + 1) s (advanceI x (s.writeBytes s.i.toNat (firstRegisters x s)))

/-- FX65 (R205). -/
def execLdVxMem (x : Nibble) (s : State) : Result :=
  withRange (x.toNat + 1) s (advanceI x (loadRegisters x s))

end Sys2Proof.Machine
end

