-- ==== Sys2Proof/Machine/Keypad.lean ====
section
/-! DEFINITION. EX9E, EXA1 and the key-wait state machine of FX0A (46_keypad.md). -/

namespace Sys2Proof.Machine

/-- EX9E (R241). -/
def execSkp (x : Nibble) (s : State) : Result := .next (s.skipIf (keyIsDown (s.getV x) s))

/-- EXA1 (R242). -/
def execSknp (x : Nibble) (s : State) : Result := .next (s.skipIf (!keyIsDown (s.getV x) s))

/-- FX0A (R243): one arm of the state machine an execution. -/
def execLdVxK (x : Nibble) (s : State) : Result :=
  match s.kwState with
  | .idle => .next { s with kwState := .awaitPress }.hold
  | .awaitPress =>
    match s.lastKey with
    | some k => .next { s with kwKey := k, kwState := .awaitRelease }.hold
    | none => .next s.hold
  | .awaitRelease =>
    if s.keyDown = 0 then .next { s.setV x (s.kwKey.setWidth 8) with kwState := .idle } else .next s.hold

end Sys2Proof.Machine
end

