-- ==== Sys2Proof/Machine/Skips.lean ====
section
/-! DEFINITION. 3XNN, 4XNN, 5XY_, 9XY_ (42_skips.md). -/

namespace Sys2Proof.Machine

/-- 3XNN (R161). -/
def execSeImm (x : Nibble) (nn : Byte) (s : State) : Result := .next (s.skipIf (s.getV x == nn))

/-- 4XNN (R162). -/
def execSneImm (x : Nibble) (nn : Byte) (s : State) : Result := .next (s.skipIf (s.getV x != nn))

/-- 5XY_ (R163): the low nibble is ignored (R99). -/
def execSeReg (x y : Nibble) (s : State) : Result := .next (s.skipIf (s.getV x == s.getV y))

/-- 9XY_ (R164): the low nibble is ignored (R99). -/
def execSneReg (x y : Nibble) (s : State) : Result := .next (s.skipIf (s.getV x != s.getV y))

end Sys2Proof.Machine
end

