-- ==== Sys2Proof/Machine/Timers.lean ====
section
/-! DEFINITION. FX07, FX15, FX18 (47_timers.md). -/

namespace Sys2Proof.Machine

/-- FX07 (R260). -/
def execLdVxDt (x : Nibble) (s : State) : Result := .next (s.setV x s.dt)

/-- FX15 (R261). -/
def execLdDtVx (x : Nibble) (s : State) : Result := .next { s with dt := s.getV x }

/-- FX18 (R262). -/
def execLdStVx (x : Nibble) (s : State) : Result := .next { s with st := s.getV x }

end Sys2Proof.Machine
end

