-- ==== Sys2Proof/Machine/Unknown.lean ====
section
/-! DEFINITION. Unknown words (48_unknown.md). -/

namespace Sys2Proof.Machine

/-- Every unknown word is a no-operation (R270): the only change of its cycle is the fetch's. -/
def execUnknown (s : State) : Result := .next s

end Sys2Proof.Machine
end

