-- ==== Sys2Proof/Machine/Cycle.lean ====
section
/-! DEFINITION. The instruction cycle, the instruction-rate timer, and the steps of the other agents (40_cycle.md). -/

namespace Sys2Proof.Machine

/-! ### The instruction cycle (R121) -/

/-- The start of a cycle: the strobe is cleared and no fault has been signalled. The key inputs are read from the state, which
no other agent changes during the cycle, so that is the one sample of R123. -/
def beginCycle (s : State) : State := { s with redraw := false, outcome := .ok }

/-- The word the fetch reads (R122). -/
def fetchWord (s : State) : Word := s.readWord s.pc.toNat

/-- One instruction cycle of a core that is not halted. -/
def cycle (s : State) : Result :=
  if 0xFFE < s.pc.toNat then .next (takeFault .endOfMemory s.pc 0 (beginCycle s))
  else exec (decode (fetchWord s)) ((beginCycle s).setPc (s.pc + 2))

/-! ### The instruction-rate timer (R129, R130) -/

/-- `now >= next_due`: `next_due` is `nextDue / IPS` seconds after the reset (log 6). -/
def State.isDue (s : State) : Bool := decide (s.nextDue * (s.now.denPred + 1) ≤ s.now.num * s.cfg.ips)

/-- `next_due <- next_due + 1/IPS`, from its old value. -/
def State.advanceDue (s : State) : State := { s with nextDue := s.nextDue + 1 }

/-- Time passes until the next cycle is due, if it is not due yet and the host has not quit (log 6). -/
def State.waitDue (s : State) : State :=
  if s.quit || s.isDue then s else { s with now := { num := s.nextDue, denPred := s.cfg.ips - 1 } }

/-- One scheduler pass (R129): nothing once `quit` is set; at most one cycle, and none when halted (R125). An instruction
neither reads nor writes `next_due`, so it is advanced here before the cycle (log 17). -/
def corePass (s : State) : Result :=
  if s.quit then .next s
  else if s.cfg.ips = 0 then .refused .illegalConfiguration
  else if s.isDue then
    if s.halted then .next s.advanceDue else cycle s.advanceDue
  else .next s

/-! ### The other agents (R127, R128, R134, R320) -/

/-- `a` plus `num / (denPred + 1)` seconds. -/
def Instant.add (a : Instant) (num denPred : Nat) : Instant :=
  { num := a.num * (denPred + 1) + num * (a.denPred + 1), denPred := (a.denPred + 1) * (denPred + 1) - 1 }

/-- A host or timer step other than a reset; after `quit` the state stays where it is (R133, R134, log 11). -/
def unlessQuit (t : State) (s : State) : Result := if s.quit then .next s else .next t

/-- One step of the agent that moves. -/
def agentStep (a : AgentStep) (s : State) : Result :=
  match a with
  | .corePass => corePass s
  | .tick => unlessQuit s.tick60 s
  | .keys keyDown lastKey =>
    if keysAgree keyDown lastKey then unlessQuit { s with keyDown := keyDown, lastKey := lastKey } s
    else .refused .keyContractBroken
  | .elapse num denPred => unlessQuit { s with now := s.now.add num denPred } s
  | .quit => .next { s with quit := true }
  | .reset rom record =>
    if (latchCfg record).ips = 0 then .refused .illegalConfiguration else .next (resetMachine rom (latchCfg record) s)

/-! ### Placing an instruction where the next step fetches it -/

/-- Where the next cycle can fetch from: `pc` itself, or the entry point when a fetch at `pc` would run past 0xFFF. -/
def fetchPlace (s : State) : Word := if 0xFFE < s.pc.toNat then 0x200 else s.pc

/-- The state with word `w` at the next fetch and nothing to keep the next step from fetching it: no halt, no quit, no other
agent's step first, a legal rate. -/
def placeWord (w : Word) (s : State) : State :=
  { s with
      mem := Memory.writeBytes s.mem (fetchPlace s).toNat (wordBytes w), pc := fetchPlace s, halted := false,
      quit := false, schedule := [], cfg := { s.cfg with ips := max s.cfg.ips 1 } }

end Sys2Proof.Machine
end

