-- ==== Sys2Proof/Machine/Step.lean ====
section
/-! DEFINITION. The step of the machine: the agent that `schedule` names next moves; when it names none, time passes until a
cycle is due and the core makes its scheduler pass (log 5, log 6). -/

namespace Sys2Proof.Machine

def step (s : State) : Host.Outcome State Fault Refusal :=
  match s.schedule with
  | [] => corePass s.waitDue
  | a :: rest => agentStep a { s with schedule := rest }

/-- `s` with an instruction word placed where `step` fetches its next instruction (bits numbered as opcode_table.json numbers
them; log 4). -/
def State.withFetchWord (s : State) (nbits w : Nat) : State := placeWord (BitVec.ofNat 16 (w % 2 ^ nbits)) s

end Sys2Proof.Machine
end

