-- ==== Sys2Proof/Machine/PixelLoop.lean ====
section
/-! DEFINITION. The pseudocode of DXYN as 45_display.md R221 writes it, pixel by pixel in two nested loops. The machine does not
run it: it runs the row masks of Display.lean, and a statement says that the two agree. -/

namespace Sys2Proof.Machine

/-- `fb[y][x]` for any row number; there is no pixel below row 31. -/
def Frame.at (fb : Frame) (y x : Nat) : Bool := if h : y < 32 then (fb[y]).getMsbD x else false

/-- `fb[y][x] <- fb[y][x] xor 1`. -/
def Frame.flip (fb : Frame) (y x : Nat) : Frame :=
  if h : y < 32 then fb.set y (fb[y] ^^^ (1#64 <<< (63 - x))) h else fb

/-- The body of the inner loop, for sprite byte `b`, start column `x0`, row `y` and loop variable `c`; the pair is (`fb`, `coll`). -/
def loopPixel (b : Byte) (x0 y : Nat) (acc : Frame × Bool) (c : Nat) : Frame × Bool :=
  if x0 + c ≤ 63 ∧ b.getLsbD (7 - c) = true then
    (Frame.flip acc.1 y (x0 + c), if Frame.at acc.1 y (x0 + c) then true else acc.2)
  else acc

/-- `for c in 0 .. 7`. -/
def loopRow (b : Byte) (x0 y : Nat) (acc : Frame × Bool) : Frame × Bool :=
  (List.range 8).foldl (loopPixel b x0 y) acc

/-- `coll <- 0; for r in 0 .. rows - 1`, over the display and the sprite bytes of `s`. -/
def loopSprite (s : State) (x0 y0 rows : Nat) : Frame × Bool :=
  (List.range rows).foldl (fun acc r => loopRow (s.readByte (s.i.toNat + r)) x0 (y0 + r) acc) (s.fb, false)

end Sys2Proof.Machine
end

