-- ==== Sys2Proof/Safety.lean ====
section
/-! DEFINITION. The terms in which claims about the machine are made: what an instruction leaves alone, what a fault leaves, the
invariants, and the tables of which instruction writes what (10_state.md R39). -/

namespace Sys2Proof.Machine

/-! ### What an instruction leaves alone -/

/-- `t` is `s` but for general registers; every byte of memory reads as before. -/
def OnlyRegisters (s t : State) : Prop := t = { s with v := t.v } ∧ ∀ a, t.readByte a = s.readByte a

/-- `t` is `s` after the fault `f` with the given record (60_exceptions.md R288), and nothing else. -/
def FaultTaken (f : CycleOutcome) (faultPc faultAddr : Word) (s t : State) : Prop :=
  t = { s with
          faultCode := if s.faultCode = .ok then f else s.faultCode
          faultPc := if s.faultCode = .ok then faultPc else s.faultPc
          faultAddr := if s.faultCode = .ok then faultAddr else s.faultAddr
          outcome := f
          halted := s.halted || s.par.haltOnFault }

/-! ### Tables of R39 and R21 -/

/-- Column V[X] of R39: does the instruction name register `r` as a destination? -/
def writesRegister (i : Instr) (r : Nibble) : Bool :=
  match i with
  | .cls => false
  | .ret => false
  | .jp _ => false
  | .call _ => false
  | .seImm _ _ => false
  | .sneImm _ _ => false
  | .seReg _ _ _ => false
  | .ldImm x _ => r == x
  | .addImm x _ => r == x
  | .ldReg x _ => r == x
  | .orReg x _ => r == x
  | .andReg x _ => r == x
  | .xorReg x _ => r == x
  | .addReg x _ => r == x
  | .subReg x _ => r == x
  | .shr x _ => r == x
  | .subnReg x _ => r == x
  | .shl x _ => r == x
  | .sneReg _ _ _ => false
  | .ldI _ => false
  | .jpV0 _ => false
  | .rnd x _ => r == x
  | .drw _ _ _ => false
  | .skp _ => false
  | .sknp _ => false
  | .ldVxDt x => r == x
  | .ldVxK x => r == x
  | .ldDtVx _ => false
  | .ldStVx _ => false
  | .addI _ => false
  | .ldF _ => false
  | .ldB _ => false
  | .ldMemVx _ => false
  | .ldVxMem x => decide (r.toNat ≤ x.toNat)
  | .unknown _ => false

/-- The six instructions that write VF as a side effect (R21). -/
def writesFlag (i : Instr) : Bool :=
  match i with
  | .cls => false
  | .ret => false
  | .jp _ => false
  | .call _ => false
  | .seImm _ _ => false
  | .sneImm _ _ => false
  | .seReg _ _ _ => false
  | .ldImm _ _ => false
  | .addImm _ _ => false
  | .ldReg _ _ => false
  | .orReg _ _ => false
  | .andReg _ _ => false
  | .xorReg _ _ => false
  | .addReg _ _ => true
  | .subReg _ _ => true
  | .shr _ _ => true
  | .subnReg _ _ => true
  | .shl _ _ => true
  | .sneReg _ _ _ => false
  | .ldI _ => false
  | .jpV0 _ => false
  | .rnd _ _ => false
  | .drw _ _ _ => true
  | .skp _ => false
  | .sknp _ => false
  | .ldVxDt _ => false
  | .ldVxK _ => false
  | .ldDtVx _ => false
  | .ldStVx _ => false
  | .addI _ => false
  | .ldF _ => false
  | .ldB _ => false
  | .ldMemVx _ => false
  | .ldVxMem _ => false
  | .unknown _ => false

/-- The instructions that may set `pc` beyond the fetch's `pc + 2` (R23). -/
def writesPc (i : Instr) : Bool :=
  match i with
  | .cls => false
  | .ret => true
  | .jp _ => true
  | .call _ => true
  | .seImm _ _ => true
  | .sneImm _ _ => true
  | .seReg _ _ _ => true
  | .ldImm _ _ => false
  | .addImm _ _ => false
  | .ldReg _ _ => false
  | .orReg _ _ => false
  | .andReg _ _ => false
  | .xorReg _ _ => false
  | .addReg _ _ => false
  | .subReg _ _ => false
  | .shr _ _ => false
  | .subnReg _ _ => false
  | .shl _ _ => false
  | .sneReg _ _ _ => true
  | .ldI _ => false
  | .jpV0 _ => true
  | .rnd _ _ => false
  | .drw _ _ _ => false
  | .skp _ => true
  | .sknp _ => true
  | .ldVxDt _ => false
  | .ldVxK _ => true
  | .ldDtVx _ => false
  | .ldStVx _ => false
  | .addI _ => false
  | .ldF _ => false
  | .ldB _ => false
  | .ldMemVx _ => false
  | .ldVxMem _ => false
  | .unknown _ => false

/-! ### The sprite of DXYN (45_display.md R221 to R223) -/

/-- The rows of the sprite that are drawn: those below row 31 are left out. -/
def drawnRows (s : State) (y n : Nibble) : Nat := min n.toNat (32 - (s.getV y).toNat % 32)

/-- Does DXYN toggle the pixel of row `r` and column `c`? An unclipped sprite bit that is 1 falls on it: bit 7 of the byte at
`I + k` is column `V[X] mod 64` of row `V[Y] mod 32 + k`. -/
def TogglesPixel (s : State) (x y n : Nibble) (r : Fin 32) (c : Nat) : Prop :=
  (s.getV y).toNat % 32 ≤ r.val ∧ r.val < (s.getV y).toNat % 32 + drawnRows s y n ∧
  (s.getV x).toNat % 64 ≤ c ∧ c ≤ (s.getV x).toNat % 64 + 7 ∧ c ≤ 63 ∧
  (s.readByte (s.i.toNat + (r.val - (s.getV y).toNat % 32))).getLsbD (7 - (c - (s.getV x).toNat % 64)) = true

/-! ### The core's turn -/

/-- The next step of `s` is a scheduler pass in which a cycle falls due: no other agent is scheduled first, the host has not
quit, the configuration is legal and the core is not halted. -/
def CoreRuns (s : State) : Prop := s.schedule = [] ∧ s.quit = false ∧ 1 ≤ s.cfg.ips ∧ s.halted = false

/-- The next step of `s` is not a reset. -/
def NoResetNext (s : State) : Prop := ∀ rom record rest, s.schedule ≠ .reset rom record :: rest

/-! ### Invariants -/

/-- Memory is in its canonical form (log 14). -/
def MemoryCanonical (s : State) : Prop := Memory.wf s.mem = true

/-- `pc` never passes 0x10FE and every entry in use is a post-fetch pc, 2 to 0x1000 (10_state.md R24). -/
def PcBounded (s : State) : Prop :=
  s.pc.toNat ≤ 0x10FE ∧ ∀ k : Fin 16, k.val < s.sp.val → 2 ≤ s.stack[k].toNat ∧ s.stack[k].toNat ≤ 0x1000

/-- While a key wait is in progress `pc` is the address of an FX0A (46_keypad.md R246). -/
def KeyWaitAtInstruction (s : State) : Prop :=
  s.kwState ≠ .idle → s.pc.toNat ≤ 0xFFE ∧ ∃ x, decode (s.readWord s.pc.toNat) = .ldVxK x

/-- The fault latch is consistent (10_state.md R32, 60_exceptions.md R288): halted exactly when a fault has been latched and
HALT_ON_FAULT holds; clear fields without a fault; an invalid address exactly for `MemoryOutOfBounds`. -/
def LatchConsistent (s : State) : Prop :=
  (s.halted = true ↔ s.par.haltOnFault = true ∧ s.faultCode ≠ .ok) ∧
  (s.faultCode = .ok → s.faultPc = 0 ∧ s.outcome = .ok) ∧
  (s.faultCode ≠ .memoryOutOfBounds → s.faultAddr = 0) ∧
  (s.faultCode = .memoryOutOfBounds → 0x1000 ≤ s.faultAddr.toNat)

/-- The frame the host received last is the framebuffer; before the first frame the framebuffer is all off (R37, R47, R227). -/
def SnapshotCurrent (s : State) : Prop :=
  s.fbOut = some s.fb ∨ (s.fbOut = none ∧ ∀ y : Fin 32, s.fb[y] = 0)

/-- The configuration is legal (10_state.md R50). -/
def ConfigLegal (s : State) : Prop := 1 ≤ s.cfg.ips

/-- The host's contract on a pair of key inputs, in the words of 10_state.md R34. -/
def KeysAgree (keyDown : BitVec 16) (lastKey : Option Nibble) : Prop :=
  (lastKey = none ↔ keyDown = 0) ∧ ∀ k, lastKey = some k → keyDown.getLsbD k.toNat = true

/-- The key inputs meet the host's contract. No cycle checks it (R34); only a step of the host could break it (R128). -/
def KeyContract (s : State) : Prop := KeysAgree s.keyDown s.lastKey

end Sys2Proof.Machine
end

