-- ==== Sys2Proof/Certificates/Slice0/Obligations.lean ====
section
/-! DEFINITION. The statements for the provers. Each docstring names the rule it formalises, or says that it rests on a decision
of spec/92_eei_decisions.md, on an inference the spec marks as derived, or on a choice of the model (its log entry). -/

open Sys2Proof Sys2Proof.Machine

/-! ### Encoding (30_encoding.md) -/

/-- R108: the worked decodings. -/
def Obligations.WorkedWordsDecode : Prop :=
  decode 0x00E0#16 = .cls ∧ decode 0x6005#16 = .ldImm 0x0#4 0x05#8 ∧ decode 0x6107#16 = .ldImm 0x1#4 0x07#8 ∧
  decode 0xA050#16 = .ldI 0x050#12 ∧ decode 0xD015#16 = .drw 0x0#4 0x1#4 0x5#4 ∧ decode 0x1200#16 = .jp 0x200#12

/-- Decode of encode is the identity on every well-formed instruction, as a word and as the first two bytes of a byte string
(R91, R92, R106, 20_memory.md R63). -/
def Obligations.DecodeAfterEncode : Prop :=
  ∀ i : Instr, i.wellFormed = true →
    decode (encode i) = i ∧ ∀ rest, decodeBytes (wordBytes (encode i) ++ rest) = .ok (i, rest)

/-- Every word decodes, to one well-formed instruction (R103, derived), and that instruction encodes back to the word. That the
second half holds for the classes 5 and 9, whose low nibble has no effect (R99), and for unknown words is the model's choice to keep
those bits (log 22, DESIGN CHOICE); no rule of the spec says that no bit of a word is dropped. -/
def Obligations.EncodeAfterDecode : Prop :=
  ∀ w : Word, (decode w).wellFormed = true ∧ encode (decode w) = w

/-- R106: a word is the instruction of a row exactly when `w and mask = match`; the rows are pairwise disjoint; a word that
matches no row is an unknown word. -/
def Obligations.DecoderFollowsOpcodeMap : Prop :=
  opcodeMap.length = 34 ∧
  ∀ w : Word,
    (∀ (k : Nat) (r : Word × Word), opcodeMap[k]? = some r → (w &&& r.2 = r.1 ↔ (decode w).row = k)) ∧
    ((∀ r ∈ opcodeMap, w &&& r.2 ≠ r.1) ↔ decode w = .unknown w) ∧
    (∀ (j k : Nat) (r q : Word × Word), opcodeMap[j]? = some r → opcodeMap[k]? = some q → w &&& r.2 = r.1 → w &&& q.2 = q.1 → j = k)

/-- The four spaces of unknown words of R101 (without its count of them); that the instruction keeps the word is a choice of the
model (log 22). -/
def Obligations.UnknownWordsAreFourSpaces : Prop :=
  ∀ w : Word,
    ((∃ u, decode w = .unknown u) ↔
      (fieldOP w = 0x0#4 ∧ w ≠ 0x00E0#16 ∧ w ≠ 0x00EE#16) ∨
      (fieldOP w = 0x8#4 ∧ fieldN w ∈ [0x8#4, 0x9#4, 0xA#4, 0xB#4, 0xC#4, 0xD#4, 0xF#4]) ∨
      (fieldOP w = 0xE#4 ∧ fieldNN w ∉ [0x9E#8, 0xA1#8]) ∨
      (fieldOP w = 0xF#4 ∧
        fieldNN w ∉ [0x07#8, 0x0A#8, 0x15#8, 0x18#8, 0x1E#8, 0x29#8, 0x33#8, 0x55#8, 0x65#8])) ∧
    (∀ u, decode w = .unknown u → u = w)

/-! ### The cycle and the other agents (40_cycle.md) -/

/-- R121, R122, R129: with a cycle due, `pc` at most 0xFFE and the core running, a step is the execution of the decoded word on
the state after the fetch, and `next_due` has advanced by one period. When the schedule is empty time first passes until the
cycle is due (`waitDue`, the model's choice, log 5 and log 6); an explicit pass runs at the present time. -/
def Obligations.StepRunsDecodedInstruction : Prop :=
  (∀ s : State, CoreRuns s → s.pc.toNat ≤ 0xFFE →
    step s = exec (decode (s.readWord s.pc.toNat))
      { s.waitDue with nextDue := s.nextDue + 1, redraw := false, outcome := .ok, pc := s.pc + 2 }) ∧
  (∀ (s : State) (rest : List AgentStep), s.schedule = .corePass :: rest → s.quit = false → 1 ≤ s.cfg.ips →
    s.halted = false → s.nextDue * (s.now.denPred + 1) ≤ s.now.num * s.cfg.ips → s.pc.toNat ≤ 0xFFE →
    step s = exec (decode (s.readWord s.pc.toNat))
      { s with schedule := rest, nextDue := s.nextDue + 1, redraw := false, outcome := .ok, pc := s.pc + 2 }) ∧
  (∀ (s : State) (a : Nat), (s.readWord a).toNat = (s.readByte a).toNat * 256 + (s.readByte (a + 1)).toNat)

/-- `EndOfMemory` (60_exceptions.md R283, R288; decisions D4, D8, D9): a cycle with `pc` above 0xFFE reads nothing, leaves `pc`,
and records the fault. When the schedule is empty time first passes until the cycle is due (`waitDue`, the model's choice, log 5
and log 6); an explicit pass runs at the present time. -/
def Obligations.FetchPastEndTakesEndOfMemory : Prop :=
  (∀ s : State, CoreRuns s → 0xFFE < s.pc.toNat →
    ∃ t, step s = .next t ∧
      FaultTaken .endOfMemory s.pc 0 { s.waitDue with nextDue := s.nextDue + 1, redraw := false, outcome := .ok } t) ∧
  (∀ (s : State) (rest : List AgentStep), s.schedule = .corePass :: rest → s.quit = false → 1 ≤ s.cfg.ips →
    s.halted = false → s.nextDue * (s.now.denPred + 1) ≤ s.now.num * s.cfg.ips → 0xFFE < s.pc.toNat →
    ∃ t, step s = .next t ∧
      FaultTaken .endOfMemory s.pc 0
        { s with schedule := rest, nextDue := s.nextDue + 1, redraw := false, outcome := .ok } t)

/-- A pass runs no cycle before one is due and none once the host has quit (R129); a halted core runs none either, though its
timer advances (R125, R129; decision D8; log 10). With an empty schedule time first passes until one is due (log 5, log 6). -/
def Obligations.PassesThatRunNoCycle : Prop :=
  (∀ (s : State) (rest : List AgentStep), s.schedule = .corePass :: rest → 1 ≤ s.cfg.ips →
    s.now.num * s.cfg.ips < s.nextDue * (s.now.denPred + 1) → step s = .next { s with schedule := rest }) ∧
  (∀ (s : State) (rest : List AgentStep), s.schedule = .corePass :: rest → s.quit = true →
    step s = .next { s with schedule := rest }) ∧
  (∀ s : State, s.schedule = [] → s.quit = true → step s = .next s) ∧
  (∀ s : State, s.schedule = [] → s.quit = false → 1 ≤ s.cfg.ips → s.halted = true →
    step s = .next { s.waitDue with nextDue := s.nextDue + 1 }) ∧
  (∀ (s : State) (rest : List AgentStep), s.schedule = .corePass :: rest → s.quit = false → 1 ≤ s.cfg.ips →
    s.halted = true → s.nextDue * (s.now.denPred + 1) ≤ s.now.num * s.cfg.ips →
    step s = .next { s with schedule := rest, nextDue := s.nextDue + 1 })

/-- One timer tick (R127): each timer counts down by one and stops at zero, and nothing else changes, in a key wait and after a
halt too (decision D25). -/
def Obligations.TickCountsBothTimersDown : Prop :=
  ∀ (s : State) (rest : List AgentStep), s.schedule = .tick :: rest → s.quit = false →
    ∃ t, step s = .next t ∧ t = { s with schedule := rest, dt := t.dt, st := t.st } ∧
      t.dt.toNat = s.dt.toNat - 1 ∧ t.st.toNat = s.st.toNat - 1

/-- The source's timer scenario (R127, its worked case; 95_test_vectors.md S9): after `n` ticks a timer holds its value less `n`,
and zero from then on. -/
def Obligations.TicksReachZeroAndStay : Prop :=
  ∀ (n : Nat) (s : State) (rest : List AgentStep), s.schedule = List.replicate n .tick ++ rest → s.quit = false →
    ∃ t : State, Sys2Proof.core.run n s = .next t ∧ t = { s with schedule := rest, dt := t.dt, st := t.st } ∧
      t.dt.toNat = s.dt.toNat - n ∧ t.st.toNat = s.st.toNat - n

/-- The host's steps (R128, R134; the passage of time is log 6): each changes its own input and nothing of the machine. Key inputs
that break the contract of R34 are refused, before quit and after it (U25 of 93_implementation_defined.md; log 8). -/
def Obligations.HostTouchesInputsAlone : Prop :=
  (∀ (s : State) (kd : BitVec 16) (lk : Option Nibble) (rest : List AgentStep), s.schedule = .keys kd lk :: rest →
    (KeysAgree kd lk → s.quit = false → step s = .next { s with schedule := rest, keyDown := kd, lastKey := lk }) ∧
    (¬ KeysAgree kd lk → step s = .refused .keyContractBroken)) ∧
  (∀ (s : State) (rest : List AgentStep), s.schedule = .quit :: rest →
    step s = .next { s with schedule := rest, quit := true }) ∧
  (∀ (s : State) (m d : Nat) (rest : List AgentStep), s.schedule = .elapse m d :: rest → s.quit = false →
    ∃ t, step s = .next t ∧ t = { s with schedule := rest, now := t.now } ∧
      t.now.num * ((s.now.denPred + 1) * (d + 1)) =
        (s.now.num * (d + 1) + m * (s.now.denPred + 1)) * (t.now.denPred + 1))

/-- A reset during a run (10_state.md R53, R50, R320, R321; the values the source omits are decision D19, log 1; a refused record
decision D35): everything of the machine is rebuilt from the ROM and the record presented, a field the record leaves out taking
its default of R6 (two of them decision D20, log 3). The model's choices: the key inputs, the parameters and the model's own
fields stay (log 8, log 21, log 7, log 5); quit is lowered (log 11); outcome is Ok (log 9); no frame has been handed over
(log 25); time and `next_due` restart at 0 (log 6). -/
def Obligations.ResetRebuildsTheMachine : Prop :=
  ∀ (s : State) (rom : List Byte) (record : CfgRecord) (rest : List AgentStep),
    s.schedule = .reset rom record :: rest →
    (record.ips = some 0 → step s = .refused .illegalConfiguration) ∧
    (record.ips ≠ some 0 → step s = .next { State.reset with
      mem := resetMemory s.par.font rom
      cfg := { ips := record.ips.getD 700, shiftVy := record.shiftVy.getD true, jumpVx := record.jumpVx.getD false,
               memInc := record.memInc.getD true }
      par := s.par, keyDown := s.keyDown, lastKey := s.lastKey, rndDraws := s.rndDraws, schedule := rest })

/-! ### Reset (10_state.md part 4) -/

/-- R46: memory after reset, for every FONT and every ROM, however long. -/
def Obligations.ResetMemoryMap : Prop :=
  ∀ (par : Params) (cfg : Cfg) (rom : List Byte) (a : Nat), a ≤ 0xFFF →
    (a < 0x050 → (powerOn par cfg rom).readByte a = 0) ∧
    (∀ k : Fin 80, a = 0x050 + k.val → (powerOn par cfg rom).readByte a = par.font[k]) ∧
    (0x0A0 ≤ a → a < 0x200 → (powerOn par cfg rom).readByte a = 0) ∧
    (∀ k b, a = 0x200 + k → rom[k]? = some b → (powerOn par cfg rom).readByte a = b) ∧
    (0x200 + rom.length ≤ a → (powerOn par cfg rom).readByte a = 0)

/-- R40, R43: `pc` is 0x200, both timers are 0, and the word at `pc` is made of the first two bytes of the ROM (0x00 where it is
shorter). -/
def Obligations.ResetStatedValues : Prop :=
  ∀ (par : Params) (cfg : Cfg) (rom : List Byte),
    (powerOn par cfg rom).pc = 0x200#16 ∧ (powerOn par cfg rom).dt = 0#8 ∧ (powerOn par cfg rom).st = 0#8 ∧
    (powerOn par cfg rom).readWord 0x200 = bytesWord (rom.getD 0 0) (rom.getD 1 0)

/-- The other values after reset (R41, R42, R44, R47 to R50): `sp` is stated; the rest is decision D19 of the spec (log 1); the
record is applied; and State.reset is the machine with the default parameters and no ROM (log 4). -/
def Obligations.ResetDecidedValues : Prop :=
  (∀ (par : Params) (cfg : Cfg) (rom : List Byte),
    (∀ r, (powerOn par cfg rom).getV r = 0#8) ∧ (powerOn par cfg rom).i = 0#16 ∧ (powerOn par cfg rom).sp = 0 ∧
    (∀ k : Fin 16, (powerOn par cfg rom).stack[k] = 0#16) ∧
    (∀ (y : Fin 32) (x : Nat), Frame.pixel (powerOn par cfg rom).fb y x = false) ∧
    (powerOn par cfg rom).kwState = .idle ∧ (powerOn par cfg rom).kwKey = 0#4 ∧ (powerOn par cfg rom).halted = false ∧
    (powerOn par cfg rom).faultCode.code = 0 ∧ (powerOn par cfg rom).faultPc = 0#16 ∧
    (powerOn par cfg rom).faultAddr = 0#16 ∧ (powerOn par cfg rom).redraw = false ∧
    (powerOn par cfg rom).fbOut = none ∧ (powerOn par cfg rom).cfg = cfg) ∧
  State.reset = powerOn defaultParams defaultCfg [] ∧
  defaultCfg = { ips := 700, shiftVy := true, jumpVx := false, memInc := true }

/-! ### Memory (20_memory.md) -/

/-- R74 (derived in the spec): a store of the two bytes of a word is seen by the next fetch from there. -/
def Obligations.StoredWordIsFetched : Prop :=
  ∀ (s : State) (a : Nat) (w : Word), MemoryCanonical s → a ≤ 0xFFE →
    (s.writeBytes a (wordBytes w)).readWord a = w

/-- The canonical form does its work (log 14): memories in it that read the same everywhere are the same data. -/
def Obligations.CanonicalMemoryIsUnique : Prop :=
  ∀ m m' : Memory, Memory.wf m = true → Memory.wf m' = true → (∀ a, Memory.read m a = Memory.read m' a) → m = m'

/-! ### Control flow and skips (41_control_flow.md, 42_skips.md) -/

/-- 00EE (R150, R282; the fault's record is decisions D7, D8, D9): pops the stack into `pc`; with the stack empty raises
`StackUnderflow` and does nothing else. -/
def Obligations.ReturnPopsTheStack : Prop :=
  ∀ s : State,
    (∀ k : Fin 16, s.sp.val = k.val + 1 →
      ∃ t, exec .ret s = .next t ∧ t = { s with pc := s.stack[k], sp := t.sp } ∧ t.sp.val = k.val) ∧
    (s.sp.val = 0 → ∃ t, exec .ret s = .next t ∧ FaultTaken .stackUnderflow (s.pc - 2) 0 s t)

/-- R151: 1NNN sets `pc` to NNN, zero-extended, and changes nothing else. -/
def Obligations.JumpSetsPc : Prop :=
  ∀ (nnn : Addr) (s : State),
    ∃ t, exec (.jp nnn) s = .next t ∧ t = { s with pc := t.pc } ∧ t.pc.toNat = nnn.toNat

/-- 2NNN (R152, R281; the value pushed is decision D29, the fault's record D7, D8, D9): pushes the post-fetch pc and jumps; with
16 entries in use raises `StackOverflow` and does nothing else. -/
def Obligations.CallPushesAndJumps : Prop :=
  ∀ (nnn : Addr) (s : State),
    (∀ k : Fin 16, s.sp.val = k.val →
      ∃ t, exec (.call nnn) s = .next t ∧ t = { s with pc := t.pc, stack := t.stack, sp := t.sp } ∧
        t.pc.toNat = nnn.toNat ∧ t.sp.val = k.val + 1 ∧
        ∀ j : Fin 16, t.stack[j] = if j = k then s.pc else s.stack[j]) ∧
    (s.sp.val = 16 → ∃ t, exec (.call nnn) s = .next t ∧ FaultTaken .stackOverflow (s.pc - 2) 0 s t)

/-- BNNN (R153; the unmasked sum is decision D21): `pc` is NNN plus `V[0]`, or plus `V[X]` with `X` the top digit of NNN when
`JUMP_VX`. -/
def Obligations.JumpWithOffset : Prop :=
  ∀ (nnn : Addr) (s : State),
    ∃ t, exec (.jpV0 nnn) s = .next t ∧ t = { s with pc := t.pc } ∧
      (s.cfg.jumpVx = false → t.pc.toNat = nnn.toNat + (s.getV 0#4).toNat) ∧
      (s.cfg.jumpVx = true → t.pc.toNat = nnn.toNat + (s.getV (BitVec.ofNat 4 (nnn.toNat / 256))).toNat)

/-- R161, R162: 3XNN skips when `V[X]` equals NN, 4XNN when it differs; nothing else changes. -/
def Obligations.SkipsOnImmediate : Prop :=
  ∀ (x : Nibble) (nn : Byte) (s : State),
    exec (.seImm x nn) s = .next { s with pc := if s.getV x = nn then s.pc + 2 else s.pc } ∧
    exec (.sneImm x nn) s = .next { s with pc := if s.getV x ≠ nn then s.pc + 2 else s.pc }

/-- R163, R164: 5XY_ skips when `V[X]` equals `V[Y]`, 9XY_ when they differ, whatever the low nibble. -/
def Obligations.SkipsOnRegisters : Prop :=
  ∀ (x y n : Nibble) (s : State),
    exec (.seReg x y n) s = .next { s with pc := if s.getV x = s.getV y then s.pc + 2 else s.pc } ∧
    exec (.sneReg x y n) s = .next { s with pc := if s.getV x ≠ s.getV y then s.pc + 2 else s.pc }

/-! ### Registers and ALU (43_alu.md) -/

/-- R171: 6XNN. -/
def Obligations.LoadImmediate : Prop :=
  ∀ (x : Nibble) (nn : Byte) (s : State),
    ∃ t, exec (.ldImm x nn) s = .next t ∧ OnlyRegisters s t ∧ ∀ r, t.getV r = if r = x then nn else s.getV r

/-- R172: 7XNN adds modulo 256 and writes no flag. -/
def Obligations.AddImmediate : Prop :=
  ∀ (x : Nibble) (nn : Byte) (s : State),
    ∃ t, exec (.addImm x nn) s = .next t ∧ OnlyRegisters s t ∧
      ∀ r, (t.getV r).toNat = if r = x then ((s.getV x).toNat + nn.toNat) % 256 else (s.getV r).toNat

/-- R173: 8XY0. -/
def Obligations.CopyRegister : Prop :=
  ∀ (x y : Nibble) (s : State),
    ∃ t, exec (.ldReg x y) s = .next t ∧ OnlyRegisters s t ∧ ∀ r, t.getV r = if r = x then s.getV y else s.getV r

/-- 8XY1, 8XY2, 8XY3 (R174 to R176): the result is stated; that VF is left alone is decision D11. -/
def Obligations.LogicLeavesFlagAlone : Prop :=
  ∀ (x y : Nibble) (s : State),
    (∃ t, exec (.orReg x y) s = .next t ∧ OnlyRegisters s t ∧
      ∀ r, t.getV r = if r = x then s.getV x ||| s.getV y else s.getV r) ∧
    (∃ t, exec (.andReg x y) s = .next t ∧ OnlyRegisters s t ∧
      ∀ r, t.getV r = if r = x then s.getV x &&& s.getV y else s.getV r) ∧
    (∃ t, exec (.xorReg x y) s = .next t ∧ OnlyRegisters s t ∧
      ∀ r, t.getV r = if r = x then s.getV x ^^^ s.getV y else s.getV r)

/-- R177: 8XY4, result first and flag last, for all registers, VF among them. -/
def Obligations.AddSetsCarry : Prop :=
  ∀ (x y : Nibble) (s : State),
    ∃ t, exec (.addReg x y) s = .next t ∧ OnlyRegisters s t ∧
      ∀ r, (t.getV r).toNat =
        if r = 0xF#4 then (if 256 ≤ (s.getV x).toNat + (s.getV y).toNat then 1 else 0)
        else if r = x then ((s.getV x).toNat + (s.getV y).toNat) % 256 else (s.getV r).toNat

/-- R178, R180: 8XY5 and 8XY7; the flag is 1 when there is no borrow. -/
def Obligations.SubtractSetsNoBorrow : Prop :=
  ∀ (x y : Nibble) (s : State),
    (∃ t, exec (.subReg x y) s = .next t ∧ OnlyRegisters s t ∧
      ∀ r, ((t.getV r).toNat : Int) =
        if r = 0xF#4 then (if (s.getV y).toNat ≤ (s.getV x).toNat then 1 else 0)
        else if r = x then (((s.getV x).toNat : Int) - (s.getV y).toNat) % 256 else (s.getV r).toNat) ∧
    (∃ t, exec (.subnReg x y) s = .next t ∧ OnlyRegisters s t ∧
      ∀ r, ((t.getV r).toNat : Int) =
        if r = 0xF#4 then (if (s.getV x).toNat ≤ (s.getV y).toNat then 1 else 0)
        else if r = x then (((s.getV y).toNat : Int) - (s.getV x).toNat) % 256 else (s.getV r).toNat)

/-- R179, R181: 8XY6 and 8XYE shift by one the register the toggle selects; the flag is the bit shifted out. -/
def Obligations.ShiftsByOne : Prop :=
  ∀ (x y : Nibble) (s : State),
    (∃ t, exec (.shr x y) s = .next t ∧ OnlyRegisters s t ∧
      ∀ r, (t.getV r).toNat =
        if r = 0xF#4 then (s.getV (if s.cfg.shiftVy then y else x)).toNat % 2
        else if r = x then (s.getV (if s.cfg.shiftVy then y else x)).toNat / 2 else (s.getV r).toNat) ∧
    (∃ t, exec (.shl x y) s = .next t ∧ OnlyRegisters s t ∧
      ∀ r, (t.getV r).toNat =
        if r = 0xF#4 then (s.getV (if s.cfg.shiftVy then y else x)).toNat / 128
        else if r = x then (s.getV (if s.cfg.shiftVy then y else x)).toNat * 2 % 256 else (s.getV r).toNat)

/-- R182: CXNN leaves a free byte masked with NN, so that every bit that is 0 in NN is 0 in the result; the counter of draws is
the model's own (log 7), and every draw is afresh. -/
def Obligations.RandomByteIsMasked : Prop :=
  ∀ (x : Nibble) (nn : Byte) (s : State),
    ∃ t b, exec (.rnd x nn) s = .next t ∧ t = { s with v := t.v, rndDraws := s.rndDraws + 1 } ∧
      b = Config.rndByte s.rndDraws ∧
      (∀ r, t.getV r = if r = x then b &&& nn else s.getV r) ∧
      (∀ k, nn.getLsbD k = false → (t.getV x).getLsbD k = false) ∧ (t.getV x).toNat ≤ nn.toNat ∧
      ∀ a, t.readByte a = s.readByte a

/-! ### Index register and memory transfers (44_index_memory.md) -/

/-- R200: ANNN. -/
def Obligations.LoadIndex : Prop :=
  ∀ (nnn : Addr) (s : State),
    ∃ t, exec (.ldI nnn) s = .next t ∧ t = { s with i := t.i } ∧ t.i.toNat = nnn.toNat

/-- FX1E and FX29 (R201, R202; the 16-bit wrap is decision D12, the unmasked register D13): no flag, no memory access. -/
def Obligations.IndexArithmetic : Prop :=
  ∀ (x : Nibble) (s : State),
    (∃ t, exec (.addI x) s = .next t ∧ t = { s with i := t.i } ∧ t.i.toNat = (s.i.toNat + (s.getV x).toNat) % 65536) ∧
    (∃ t, exec (.ldF x) s = .next t ∧ t = { s with i := t.i } ∧ t.i.toNat = 0x050 + 5 * (s.getV x).toNat)

/-- FX33 (R203; that `I` stays is decision D33): the three decimal digits at `I`, `I + 1`, `I + 2`, every other byte as before. -/
def Obligations.StoreDecimalDigits : Prop :=
  ∀ (x : Nibble) (s : State), MemoryCanonical s → s.i.toNat + 2 ≤ 0xFFF →
    ∃ t, exec (.ldB x) s = .next t ∧ t = { s with mem := t.mem } ∧ MemoryCanonical t ∧
      (t.readByte s.i.toNat).toNat = (s.getV x).toNat / 100 ∧
      (t.readByte (s.i.toNat + 1)).toNat = (s.getV x).toNat / 10 % 10 ∧
      (t.readByte (s.i.toNat + 2)).toNat = (s.getV x).toNat % 10 ∧
      ∀ a, (a < s.i.toNat ∨ s.i.toNat + 2 < a) → t.readByte a = s.readByte a

/-- FX55 (R204; that `I` stays with the toggle off is decision D33): `V[0]` to `V[X]` at `I` up, every other byte as before. -/
def Obligations.StoreRegisters : Prop :=
  ∀ (x : Nibble) (s : State), MemoryCanonical s → s.i.toNat + x.toNat ≤ 0xFFF →
    ∃ t, exec (.ldMemVx x) s = .next t ∧ t = { s with mem := t.mem, i := t.i } ∧ MemoryCanonical t ∧
      (∀ r : Nibble, r.toNat ≤ x.toNat → t.readByte (s.i.toNat + r.toNat) = s.getV r) ∧
      (∀ a, (a < s.i.toNat ∨ s.i.toNat + x.toNat < a) → t.readByte a = s.readByte a) ∧
      t.i.toNat = if s.cfg.memInc then s.i.toNat + x.toNat + 1 else s.i.toNat

/-- FX65 (R205; that `I` stays with the toggle off is decision D33): `V[0]` to `V[X]` from `I` up, the others unchanged. -/
def Obligations.LoadRegisters : Prop :=
  ∀ (x : Nibble) (s : State), s.i.toNat + x.toNat ≤ 0xFFF →
    ∃ t, exec (.ldVxMem x) s = .next t ∧ t = { s with v := t.v, i := t.i } ∧
      (∀ r, t.getV r = if r.toNat ≤ x.toNat then s.readByte (s.i.toNat + r.toNat) else s.getV r) ∧
      (t.i.toNat = if s.cfg.memInc then s.i.toNat + x.toNat + 1 else s.i.toNat) ∧
      ∀ a, t.readByte a = s.readByte a

/-- `MemoryOutOfBounds` (R206, R284; decision D5, with the record D8, D9): FX33, FX55, FX65 and DXYN whose range passes 0xFFF do
nothing but raise it, with the lowest invalid address. -/
def Obligations.TransfersPastEndFault : Prop :=
  ∀ (s : State) (bad : Word), bad.toNat = max s.i.toNat 0x1000 →
    (∀ x, 0xFFF < s.i.toNat + 2 →
      ∃ t, exec (.ldB x) s = .next t ∧ FaultTaken .memoryOutOfBounds (s.pc - 2) bad s t) ∧
    (∀ x : Nibble, 0xFFF < s.i.toNat + x.toNat →
      (∃ t, exec (.ldMemVx x) s = .next t ∧ FaultTaken .memoryOutOfBounds (s.pc - 2) bad s t) ∧
      (∃ t, exec (.ldVxMem x) s = .next t ∧ FaultTaken .memoryOutOfBounds (s.pc - 2) bad s t)) ∧
    (∀ x y n : Nibble, 1 ≤ drawnRows s y n → 0xFFF < s.i.toNat + drawnRows s y n - 1 →
      ∃ t, exec (.drw x y n) s = .next t ∧ FaultTaken .memoryOutOfBounds (s.pc - 2) bad s t)

/-! ### Display (45_display.md) -/

/-- R220: 00E0 turns all 2048 pixels off and presents the frame. -/
def Obligations.ClearTurnsEveryPixelOff : Prop :=
  ∀ s : State,
    ∃ t, exec .cls s = .next t ∧ t = { s with fb := t.fb, redraw := true, fbOut := some t.fb } ∧
      ∀ (y : Fin 32) (x : Nat), Frame.pixel t.fb y x = false

/-- DXYN (R221 to R225; bit order D18, clipped rows D17, N = 0 D16): each pixel is XORed with the unclipped sprite bit that falls
on it, VF is 1 exactly when some pixel was on and is toggled, the frame is presented, and nothing else changes. -/
def Obligations.DrawXorsTheSprite : Prop :=
  ∀ (x y n : Nibble) (s : State), drawnRows s y n = 0 ∨ s.i.toNat + drawnRows s y n - 1 ≤ 0xFFF →
    ∃ t, exec (.drw x y n) s = .next t ∧ t = { s with v := t.v, fb := t.fb, redraw := true, fbOut := some t.fb } ∧
      (∀ (r : Fin 32) (c : Nat), c ≤ 63 →
        (TogglesPixel s x y n r c → Frame.pixel t.fb r c = !Frame.pixel s.fb r c) ∧
        (¬ TogglesPixel s x y n r c → Frame.pixel t.fb r c = Frame.pixel s.fb r c)) ∧
      ((∃ r c, TogglesPixel s x y n r c ∧ Frame.pixel s.fb r c = true) → t.getV 0xF#4 = 1#8) ∧
      ((¬ ∃ r c, TogglesPixel s x y n r c ∧ Frame.pixel s.fb r c = true) → t.getV 0xF#4 = 0#8) ∧
      (∀ k, k ≠ 0xF#4 → t.getV k = s.getV k) ∧
      ∀ a, t.readByte a = s.readByte a

/-- The first half of R226 (derived in the spec): the same DXYN twice restores the display. For VF after the second, R221 and
R224 give 1 exactly when an unclipped sprite bit falls on a pixel that was off before the first; R226's own clause on VF leaves
out that the pixel was off, and R221 contradicts it where every such pixel was on (log 27). Where no such pixel was on, the clause
holds as R226 writes it. -/
def Obligations.DrawTwiceRestores : Prop :=
  ∀ (x y n : Nibble) (s : State), x ≠ 0xF#4 → y ≠ 0xF#4 →
    drawnRows s y n = 0 ∨ s.i.toNat + drawnRows s y n - 1 ≤ 0xFFF →
    ∃ t u, exec (.drw x y n) s = .next t ∧ exec (.drw x y n) t = .next u ∧ u.fb = s.fb ∧
      ((∃ r c, TogglesPixel s x y n r c ∧ Frame.pixel s.fb r c = false) → u.getV 0xF#4 = 1#8) ∧
      ((¬ ∃ r c, TogglesPixel s x y n r c ∧ Frame.pixel s.fb r c = false) → u.getV 0xF#4 = 0#8) ∧
      ((∀ r c, TogglesPixel s x y n r c → Frame.pixel s.fb r c = false) →
        ((∃ r c, TogglesPixel s x y n r c) → u.getV 0xF#4 = 1#8) ∧
        ((¬ ∃ r c, TogglesPixel s x y n r c) → u.getV 0xF#4 = 0#8))

/-- The machine's row masks refine the two nested loops of R221: the same display and the same flag, for every sprite, every
position and every display. -/
def Obligations.SpriteUnitRefinesPixelLoop : Prop :=
  ∀ (x y n : Nibble) (s t : State), drawnRows s y n = 0 ∨ s.i.toNat + drawnRows s y n - 1 ≤ 0xFFF →
    exec (.drw x y n) s = .next t →
    t.fb = (loopSprite s ((s.getV x).toNat % 64) ((s.getV y).toNat % 32) (drawnRows s y n)).1 ∧
    t.getV 0xF#4 =
      if (loopSprite s ((s.getV x).toNat % 64) ((s.getV y).toNat % 32) (drawnRows s y n)).2 then 1#8 else 0#8

/-! ### Keypad, timers, unknown words (46_keypad.md, 47_timers.md, 48_unknown.md) -/

/-- EX9E and EXA1 (R241, R242): the skip goes by the key `V[X]`; a value above 15 names no key and reads as up (R240, decision
D14). -/
def Obligations.KeySkips : Prop :=
  ∀ (x : Nibble) (s : State),
    (∀ k : Fin 16, (s.getV x).toNat = k.val →
      exec (.skp x) s = .next { s with pc := if s.keyDown.getLsbD k.val then s.pc + 2 else s.pc } ∧
      exec (.sknp x) s = .next { s with pc := if s.keyDown.getLsbD k.val then s.pc else s.pc + 2 }) ∧
    (16 ≤ (s.getV x).toNat →
      exec (.skp x) s = .next s ∧ exec (.sknp x) s = .next { s with pc := s.pc + 2 })

/-- FX0A (R243; the two tests are decision D15): one arm of the key-wait machine, `pc` held in every arm but the last. -/
def Obligations.KeyWaitMachine : Prop :=
  ∀ (x : Nibble) (s : State),
    (s.kwState = .idle → exec (.ldVxK x) s = .next { s with kwState := .awaitPress, pc := s.pc - 2 }) ∧
    (s.kwState = .awaitPress → s.lastKey = none → exec (.ldVxK x) s = .next { s with pc := s.pc - 2 }) ∧
    (∀ k, s.kwState = .awaitPress → s.lastKey = some k →
      exec (.ldVxK x) s = .next { s with kwKey := k, kwState := .awaitRelease, pc := s.pc - 2 }) ∧
    (s.kwState = .awaitRelease → s.keyDown ≠ 0 → exec (.ldVxK x) s = .next { s with pc := s.pc - 2 }) ∧
    (s.kwState = .awaitRelease → s.keyDown = 0 →
      ∃ t, exec (.ldVxK x) s = .next t ∧ t = { s with v := t.v, kwState := .idle } ∧
        ∀ r, (t.getV r).toNat = if r = x then s.kwKey.toNat else (s.getV r).toNat)

/-- R260, R261, R262: FX07, FX15, FX18. -/
def Obligations.TimerInstructions : Prop :=
  ∀ (x : Nibble) (s : State),
    (∃ t, exec (.ldVxDt x) s = .next t ∧ OnlyRegisters s t ∧ ∀ r, t.getV r = if r = x then s.dt else s.getV r) ∧
    exec (.ldDtVx x) s = .next { s with dt := s.getV x } ∧
    exec (.ldStVx x) s = .next { s with st := s.getV x }

/-- An unknown word changes nothing beyond the fetch (R270), both as an instruction and as a whole cycle; that cycle also advances
`next_due` (R129, decision D24) after time has passed until it is due (the model's choice, log 5 and log 6). -/
def Obligations.UnknownWordDoesNothing : Prop :=
  (∀ (w : Word) (s : State), exec (.unknown w) s = .next s) ∧
  (∀ (s : State) (w : Word), CoreRuns s → s.pc.toNat ≤ 0xFFE → decode (s.readWord s.pc.toNat) = .unknown w →
    ∃ t, step s = .next t ∧
      t = { s.waitDue with nextDue := s.nextDue + 1, redraw := false, outcome := .ok, pc := s.pc + 2 })

/-! ### Rules of the whole machine -/

/-- No instruction stops: exec answers a next state for every instruction and every state, and step for every state whose
configuration is legal, and whose next step, if it is the host's, presents a legal record or key inputs that meet the contract
(93_implementation_defined.md, opening: no case is left undefined; D35; U25, log 8; log 13). -/
def Obligations.NothingStopsTheMachine : Prop :=
  (∀ (i : Instr) (s : State), ∃ t, exec i s = .next t) ∧
  (∀ s : State, ConfigLegal s → (∀ rom record rest, s.schedule = .reset rom record :: rest → record.ips ≠ some 0) →
    (∀ kd lk rest, s.schedule = .keys kd lk :: rest → KeysAgree kd lk) →
    ∃ t, step s = .next t)

/-- Faults are raised only where R124 and R280 list them, and are precise (60_exceptions.md R289, derived in the spec): a faulting
instruction changes nothing but the latch, `outcome` and `halted`. -/
def Obligations.FaultsArePrecise : Prop :=
  ∀ (i : Instr) (s t : State), s.outcome = .ok → exec i s = .next t → t.outcome ≠ .ok →
    FaultTaken t.outcome (s.pc - 2) (if t.outcome = .memoryOutOfBounds then BitVec.ofNat 16 (max s.i.toNat 0x1000) else 0) s t ∧
    ((i = .ret ∧ t.outcome = .stackUnderflow ∧ s.sp.val = 0) ∨
     (∃ nnn, i = .call nnn ∧ t.outcome = .stackOverflow ∧ s.sp.val = 16) ∨
     (t.outcome = .memoryOutOfBounds ∧
       ((∃ x y n, i = .drw x y n) ∨ (∃ x, i = .ldB x) ∨ (∃ x, i = .ldMemVx x) ∨ (∃ x, i = .ldVxMem x))))

/-- 10_state.md R21 and column V[X] of R39: a general register changes only as a destination, or as VF by one of the six flag
writers, and those leave 0 or 1 in it unless they fault. -/
def Obligations.RegisterWritesAreListed : Prop :=
  ∀ (i : Instr) (s t : State), exec i s = .next t →
    (∀ r, t.getV r ≠ s.getV r → writesRegister i r = true ∨ (r = 0xF#4 ∧ writesFlag i = true)) ∧
    (writesFlag i = true → t.getV 0xF#4 = 0#8 ∨ t.getV 0xF#4 = 1#8 ∨
      ((∃ x y n, i = .drw x y n) ∧ t.outcome = .memoryOutOfBounds ∧ t.v = s.v))

/-- The access matrix (10_state.md R39; R22, R23, R25 to R32): which instruction may change which other state, and what none of
them changes. -/
def Obligations.OtherWritesAreListed : Prop :=
  ∀ (i : Instr) (s t : State), exec i s = .next t →
    (t.stack ≠ s.stack ∨ t.sp ≠ s.sp → i = .ret ∨ ∃ nnn, i = .call nnn) ∧
    (t.mem ≠ s.mem → (∃ x, i = .ldB x) ∨ ∃ x, i = .ldMemVx x) ∧
    (t.fb ≠ s.fb ∨ t.redraw ≠ s.redraw ∨ t.fbOut ≠ s.fbOut → i = .cls ∨ ∃ x y n, i = .drw x y n) ∧
    (t.dt ≠ s.dt → ∃ x, i = .ldDtVx x) ∧ (t.st ≠ s.st → ∃ x, i = .ldStVx x) ∧
    (t.kwState ≠ s.kwState ∨ t.kwKey ≠ s.kwKey → ∃ x, i = .ldVxK x) ∧
    (t.i ≠ s.i → (∃ nnn, i = .ldI nnn) ∨ (∃ x, i = .addI x) ∨ (∃ x, i = .ldF x) ∨
      (s.cfg.memInc = true ∧ ((∃ x, i = .ldMemVx x) ∨ ∃ x, i = .ldVxMem x))) ∧
    (t.pc ≠ s.pc → writesPc i = true) ∧
    (t.rndDraws ≠ s.rndDraws → ∃ x nn, i = .rnd x nn) ∧
    t.cfg = s.cfg ∧ t.par = s.par ∧ t.keyDown = s.keyDown ∧ t.lastKey = s.lastKey ∧ t.quit = s.quit ∧
    t.now = s.now ∧ t.nextDue = s.nextDue ∧ t.schedule = s.schedule

/-- R32, R290 (decisions D8, D9): until a reset the latch keeps the first fault, and a halted core stays halted with nothing of it
changing but the timers. -/
def Obligations.HaltAndLatchLastUntilReset : Prop :=
  ∀ s t : State, NoResetNext s → step s = .next t →
    (s.faultCode ≠ .ok → t.faultCode = s.faultCode ∧ t.faultPc = s.faultPc ∧ t.faultAddr = s.faultAddr) ∧
    (s.halted = true →
      t = { s with dt := t.dt, st := t.st, nextDue := t.nextDue, now := t.now, keyDown := t.keyDown,
                   lastKey := t.lastKey, quit := t.quit, schedule := t.schedule })

/-- R126 (a faulting DXYN is decision D26): after a cycle the strobe is 1 exactly when the instruction was 00E0 or DXYN and did
not fault, and then the host has the frame. -/
def Obligations.RedrawExactlyForDisplay : Prop :=
  ∀ s t : State, CoreRuns s → step s = .next t →
    (s.pc.toNat ≤ 0xFFE →
      (t.redraw = true ↔
        (decode (s.readWord s.pc.toNat) = .cls ∨ ∃ x y n, decode (s.readWord s.pc.toNat) = .drw x y n) ∧
        t.outcome = .ok)) ∧
    (0xFFE < s.pc.toNat → t.redraw = false) ∧
    (t.redraw = true → t.fbOut = some t.fb)

/-! ### Invariants that every step keeps -/

/-- Memory stays in its canonical form (log 14), under every agent's step. -/
def Obligations.MemoryStaysCanonical : Prop :=
  ∀ s t : State, MemoryCanonical s → step s = .next t → MemoryCanonical t

/-- 10_state.md R24 (derived in the spec): `pc` never passes 0x10FE and the entries in use stay post-fetch pcs. -/
def Obligations.PcStaysBounded : Prop :=
  ∀ s t : State, PcBounded s → step s = .next t → PcBounded t

/-- 46_keypad.md R246 (derived in the spec): while a key wait is in progress `pc` is the address of an FX0A. -/
def Obligations.KeyWaitStaysAtInstruction : Prop :=
  ∀ s t : State, KeyWaitAtInstruction s → step s = .next t → KeyWaitAtInstruction t

/-- 10_state.md R32, 60_exceptions.md R288 (decisions D8, D9): the fault latch stays consistent. -/
def Obligations.LatchStaysConsistent : Prop :=
  ∀ s t : State, LatchConsistent s → step s = .next t → LatchConsistent t

/-- 45_display.md R227, 10_state.md R29, R37: the frame the host received last is always the framebuffer. That the model keeps that
frame, and that a reset clears it, is its choice (log 25). -/
def Obligations.SnapshotStaysCurrent : Prop :=
  ∀ s t : State, SnapshotCurrent s → step s = .next t → SnapshotCurrent t

/-- Every invariant holds after a reset with any ROM, any FONT and any legal configuration, and at State.reset. -/
def Obligations.ResetMeetsInvariants : Prop :=
  ∀ (par : Params) (cfg : Cfg) (rom : List Byte), 1 ≤ cfg.ips →
    ∀ s, s = powerOn par cfg rom ∨ s = State.reset →
      MemoryCanonical s ∧ PcBounded s ∧ KeyWaitAtInstruction s ∧ LatchConsistent s ∧ SnapshotCurrent s ∧ ConfigLegal s ∧
      KeyContract s

/-! ### What cannot be learned -/

/-- 10_state.md R27 (decision D34): the sound timer influences nothing but itself. -/
def Obligations.SoundTimerInfluencesNothing : Prop :=
  ∀ (s : State) (b : Byte),
    (∀ t, step s = .next t → ∃ c, step { s with st := b } = .next { t with st := c }) ∧
    (∀ r, step s = .refused r → step { s with st := b } = .refused r)

/-- 10_state.md R25: entries at or above `sp` are not observable. -/
def Obligations.DeadStackEntriesAreUnobservable : Prop :=
  ∀ (s : State) (k : Vector Word 16), (∀ j : Fin 16, j.val < s.sp.val → k[j] = s.stack[j]) →
    (∀ t, step s = .next t →
      ∃ k' : Vector Word 16, step { s with stack := k } = .next { t with stack := k' } ∧
        ∀ j : Fin 16, j.val < t.sp.val → k'[j] = t.stack[j]) ∧
    (∀ r, step s = .refused r → step { s with stack := k } = .refused r)

/-! ### What the host may present -/

/-- 40_cycle.md R128, 10_state.md R34 (decision D15; log 8): no step leaves key inputs that break the host's contract. -/
def Obligations.KeyContractStays : Prop :=
  ∀ s t : State, KeyContract s → step s = .next t → KeyContract t
end

