-- ==== Sys2Proof/Laws/Encoding.lean ====
section
/-! SUPPORT. The fields of a word put together from fields, and a word put together from its own fields. -/

namespace Sys2Proof

/-! ### Format F-NNN -/

theorem fieldOP_nnn (op : Nibble) (nnn : Addr) : fieldOP (op ++ nnn) = op := by
  ext k hk
  simp only [fieldOP, BitVec.getElem_extractLsb']
  erw [BitVec.getLsbD_append]
  grind

theorem fieldNNN_nnn (op : Nibble) (nnn : Addr) : fieldNNN (op ++ nnn) = nnn := by
  ext k hk
  simp only [fieldNNN, BitVec.getElem_extractLsb']
  erw [BitVec.getLsbD_append]
  grind

/-! ### Format F-XNN -/

theorem fieldOP_xnn (op x : Nibble) (nn : Byte) : fieldOP (op ++ x ++ nn) = op := by
  ext k hk
  simp only [fieldOP, BitVec.getElem_extractLsb']
  erw [BitVec.getLsbD_append]
  erw [BitVec.getLsbD_append]
  grind

theorem fieldX_xnn (op x : Nibble) (nn : Byte) : fieldX (op ++ x ++ nn) = x := by
  ext k hk
  simp only [fieldX, BitVec.getElem_extractLsb']
  erw [BitVec.getLsbD_append]
  erw [BitVec.getLsbD_append]
  grind

theorem fieldNN_xnn (op x : Nibble) (nn : Byte) : fieldNN (op ++ x ++ nn) = nn := by
  ext k hk
  simp only [fieldNN, BitVec.getElem_extractLsb']
  erw [BitVec.getLsbD_append]
  erw [BitVec.getLsbD_append]
  grind

/-! ### Format F-XYN -/

theorem fieldOP_xyn (op x y n : Nibble) : fieldOP (op ++ x ++ y ++ n) = op := by
  ext k hk
  simp only [fieldOP, BitVec.getElem_extractLsb']
  erw [BitVec.getLsbD_append]
  erw [BitVec.getLsbD_append]
  erw [BitVec.getLsbD_append]
  grind

theorem fieldX_xyn (op x y n : Nibble) : fieldX (op ++ x ++ y ++ n) = x := by
  ext k hk
  simp only [fieldX, BitVec.getElem_extractLsb']
  erw [BitVec.getLsbD_append]
  erw [BitVec.getLsbD_append]
  erw [BitVec.getLsbD_append]
  grind

theorem fieldY_xyn (op x y n : Nibble) : fieldY (op ++ x ++ y ++ n) = y := by
  ext k hk
  simp only [fieldY, BitVec.getElem_extractLsb']
  erw [BitVec.getLsbD_append]
  erw [BitVec.getLsbD_append]
  erw [BitVec.getLsbD_append]
  grind

theorem fieldN_xyn (op x y n : Nibble) : fieldN (op ++ x ++ y ++ n) = n := by
  ext k hk
  simp only [fieldN, BitVec.getElem_extractLsb']
  erw [BitVec.getLsbD_append]
  erw [BitVec.getLsbD_append]
  erw [BitVec.getLsbD_append]
  grind

end Sys2Proof
end

