-- ==== Sys2Proof/Laws/Memory.lean ====
section
/-! SUPPORT. The laws of memory: every operation keeps the canonical form, a read after a write, and a read after a run of
writes. -/

namespace Sys2Proof.Machine

@[simp] theorem Memory.read_nil (a : Nat) : Memory.read [] a = Memory.initial a := rfl

theorem Memory.read_cons (k : Nat) (b : Byte) (m : Memory) (a : Nat) :
    Memory.read ((k, b) :: m) a = if k = a then b else Memory.read m a := rfl

@[simp] theorem Memory.wf_nil : Memory.wf [] = true := rfl

theorem Memory.wfFrom_cons (lo k : Nat) (b : Byte) (m : Memory) :
    Memory.wfFrom lo ((k, b) :: m) = true ↔
      lo ≤ k ∧ k ≤ 0xFFF ∧ b ≠ Memory.initial k ∧ Memory.wfFrom (k + 1) m = true := by
  simp [Memory.wfFrom, validAddress, and_assoc]

theorem Memory.wfFrom_mono {lo lo' : Nat} (h : lo' ≤ lo) {m : Memory} (hm : Memory.wfFrom lo m = true) :
    Memory.wfFrom lo' m = true := by
  cases m with
  | nil => rfl
  | cons c m =>
    obtain ⟨k, b⟩ := c
    rw [Memory.wfFrom_cons] at hm ⊢
    exact ⟨Nat.le_trans h hm.1, hm.2⟩

/-- Below the first listed address a canonical list reads as unlisted. -/
theorem Memory.read_below {m : Memory} {lo a : Nat} (hm : Memory.wfFrom lo m = true) (h : a < lo) :
    Memory.read m a = Memory.initial a := by
  induction m generalizing lo with
  | nil => rfl
  | cons c m ih =>
    obtain ⟨k, b⟩ := c
    rw [Memory.wfFrom_cons] at hm
    rw [Memory.read_cons, if_neg (by omega)]
    exact ih hm.2.2.2 (by omega)

theorem Memory.read_cell_append (a : Nat) (b : Byte) {m : Memory} (hm : Memory.wfFrom (a + 1) m = true) (c : Nat) :
    Memory.read (Memory.cell a b ++ m) c = if c = a then b else Memory.read m c := by
  unfold Memory.cell
  by_cases hb : b = Memory.initial a
  · by_cases hc : c = a
    · subst hc
      simp [hb, Memory.read_below hm (Nat.lt_succ_self c)]
    · simp [hb, hc]
  · simp [hb, Memory.read_cons, eq_comm]

theorem Memory.wfFrom_cell_append {lo a : Nat} (hlo : lo ≤ a) (ha : a ≤ 0xFFF) (b : Byte) {m : Memory}
    (hm : Memory.wfFrom (a + 1) m = true) : Memory.wfFrom lo (Memory.cell a b ++ m) = true := by
  unfold Memory.cell
  by_cases hb : b = Memory.initial a
  · simpa [hb] using Memory.wfFrom_mono (Nat.le_succ_of_le hlo) hm
  · simp only [hb, if_false, List.singleton_append]
    rw [Memory.wfFrom_cons]
    exact ⟨hlo, ha, hb, hm⟩

theorem Memory.read_put {m : Memory} {lo : Nat} (hm : Memory.wfFrom lo m = true) (a : Nat) (b : Byte) (c : Nat) :
    Memory.read (Memory.put m a b) c = if c = a then b else Memory.read m c := by
  induction m generalizing lo with
  | nil => simpa [Memory.put] using Memory.read_cell_append a b (m := []) rfl c
  | cons d m ih =>
    obtain ⟨k, e⟩ := d
    rw [Memory.wfFrom_cons] at hm
    unfold Memory.put
    by_cases h1 : a < k
    · rw [if_pos h1]
      exact Memory.read_cell_append a b (Memory.wfFrom_cons _ _ _ _ |>.mpr ⟨h1, hm.2⟩) c
    · rw [if_neg h1]
      by_cases h2 : a = k
      · subst h2
        rw [if_pos rfl, Memory.read_cell_append a b hm.2.2.2 c, Memory.read_cons]
        by_cases hc : c = a
        · simp [hc]
        · simp [hc, Ne.symm hc]
      · rw [if_neg h2, Memory.read_cons, ih hm.2.2.2, Memory.read_cons]
        by_cases hk : k = c
        · subst hk
          simp [Ne.symm h2]
        · simp [hk]

theorem Memory.wfFrom_put {m : Memory} {lo a : Nat} (hm : Memory.wfFrom lo m = true) (hlo : lo ≤ a) (ha : a ≤ 0xFFF)
    (b : Byte) : Memory.wfFrom lo (Memory.put m a b) = true := by
  induction m generalizing lo with
  | nil => simpa [Memory.put] using Memory.wfFrom_cell_append hlo ha b (m := []) rfl
  | cons d m ih =>
    obtain ⟨k, e⟩ := d
    have hm' := (Memory.wfFrom_cons _ _ _ _).mp hm
    unfold Memory.put
    by_cases h1 : a < k
    · rw [if_pos h1]
      exact Memory.wfFrom_cell_append hlo ha b ((Memory.wfFrom_cons _ _ _ _).mpr ⟨h1, hm'.2⟩)
    · rw [if_neg h1]
      by_cases h2 : a = k
      · subst h2
        rw [if_pos rfl]
        exact Memory.wfFrom_cell_append hlo ha b hm'.2.2.2
      · rw [if_neg h2, Memory.wfFrom_cons]
        exact ⟨hm'.1, hm'.2.1, hm'.2.2.1, ih hm'.2.2.2 (by omega)⟩

/-- Writing keeps the canonical form. -/
theorem Memory.wf_write {m : Memory} (hm : Memory.wf m = true) (a : Nat) (b : Byte) :
    Memory.wf (Memory.write m a b) = true := by
  unfold Memory.write validAddress
  by_cases ha : a ≤ 0xFFF
  · rw [if_pos (by simpa using ha)]
    exact Memory.wfFrom_put hm (Nat.zero_le a) ha b
  · rwa [if_neg (by simpa using ha)]

/-- A read after a write to a valid address. -/
theorem Memory.read_write {m : Memory} (hm : Memory.wf m = true) {a : Nat} (ha : a ≤ 0xFFF) (b : Byte) (c : Nat) :
    Memory.read (Memory.write m a b) c = if c = a then b else Memory.read m c := by
  unfold Memory.write validAddress
  simpa [ha] using Memory.read_put hm a b c

/-- A write to an invalid address selects nothing. -/
theorem Memory.write_invalid (m : Memory) {a : Nat} (ha : 0xFFF < a) (b : Byte) : Memory.write m a b = m := by
  simp [Memory.write, validAddress, Nat.not_le.mpr ha]

@[simp] theorem Memory.writeBytes_nil (m : Memory) (a : Nat) : Memory.writeBytes m a [] = m := rfl

theorem Memory.writeBytes_cons (m : Memory) (a : Nat) (b : Byte) (bs : List Byte) :
    Memory.writeBytes m a (b :: bs) = Memory.writeBytes (Memory.write m a b) (a + 1) bs := rfl

/-- Runs of writes keep the canonical form. -/
theorem Memory.wf_writeBytes {m : Memory} (hm : Memory.wf m = true) (a : Nat) (bs : List Byte) :
    Memory.wf (Memory.writeBytes m a bs) = true := by
  induction bs generalizing m a with
  | nil => exact hm
  | cons b bs ih => exact ih (Memory.wf_write hm a b) (a + 1)

/-- What a run of writes leaves: the bytes written in their places, every other byte as before. -/
theorem Memory.read_writeBytes {m : Memory} (hm : Memory.wf m = true) {a : Nat} {bs : List Byte}
    (ha : a + bs.length ≤ 0x1000) (c : Nat) :
    Memory.read (Memory.writeBytes m a bs) c =
      if a ≤ c ∧ c < a + bs.length then bs.getD (c - a) 0 else Memory.read m c := by
  induction bs generalizing m a with
  | nil =>
    rw [if_neg fun h => absurd h.2 (Nat.not_lt.mpr h.1)]
    rfl
  | cons b bs ih =>
    simp only [List.length_cons] at ha
    rw [Memory.writeBytes_cons, ih (Memory.wf_write hm a b) (by omega), Memory.read_write hm (by omega)]
    simp only [List.length_cons]
    by_cases h1 : c = a
    · subst h1
      rw [if_neg (by omega), if_pos rfl, if_pos (by omega)]
      simp
    · by_cases h2 : a + 1 ≤ c ∧ c < a + 1 + bs.length
      · rw [if_pos h2, if_pos (by omega), show c - a = (c - (a + 1)) + 1 by omega]
        simp
      · rw [if_neg h2, if_neg h1, if_neg (by omega)]

end Sys2Proof.Machine
end

