-- ==== Sys2Proof/Laws/State.lean ====
section
/-! SUPPORT. One lemma per field per update of State, true by rfl, so that no proof unfolds a record update. -/

namespace Sys2Proof.Machine


/-! ### State.setV -/

@[simp] theorem State.setV_v (s : State) (x : Nibble) (b : Byte) : (s.setV x b).v = s.v.set x.toNat b x.isLt := rfl
@[simp] theorem State.setV_i (s : State) (x : Nibble) (b : Byte) : (s.setV x b).i = s.i := rfl
@[simp] theorem State.setV_pc (s : State) (x : Nibble) (b : Byte) : (s.setV x b).pc = s.pc := rfl
@[simp] theorem State.setV_stack (s : State) (x : Nibble) (b : Byte) : (s.setV x b).stack = s.stack := rfl
@[simp] theorem State.setV_sp (s : State) (x : Nibble) (b : Byte) : (s.setV x b).sp = s.sp := rfl
@[simp] theorem State.setV_dt (s : State) (x : Nibble) (b : Byte) : (s.setV x b).dt = s.dt := rfl
@[simp] theorem State.setV_st (s : State) (x : Nibble) (b : Byte) : (s.setV x b).st = s.st := rfl
@[simp] theorem State.setV_mem (s : State) (x : Nibble) (b : Byte) : (s.setV x b).mem = s.mem := rfl
@[simp] theorem State.setV_fb (s : State) (x : Nibble) (b : Byte) : (s.setV x b).fb = s.fb := rfl
@[simp] theorem State.setV_kwState (s : State) (x : Nibble) (b : Byte) : (s.setV x b).kwState = s.kwState := rfl
@[simp] theorem State.setV_kwKey (s : State) (x : Nibble) (b : Byte) : (s.setV x b).kwKey = s.kwKey := rfl
@[simp] theorem State.setV_halted (s : State) (x : Nibble) (b : Byte) : (s.setV x b).halted = s.halted := rfl
@[simp] theorem State.setV_faultCode (s : State) (x : Nibble) (b : Byte) : (s.setV x b).faultCode = s.faultCode := rfl
@[simp] theorem State.setV_faultPc (s : State) (x : Nibble) (b : Byte) : (s.setV x b).faultPc = s.faultPc := rfl
@[simp] theorem State.setV_faultAddr (s : State) (x : Nibble) (b : Byte) : (s.setV x b).faultAddr = s.faultAddr := rfl
@[simp] theorem State.setV_cfg (s : State) (x : Nibble) (b : Byte) : (s.setV x b).cfg = s.cfg := rfl
@[simp] theorem State.setV_par (s : State) (x : Nibble) (b : Byte) : (s.setV x b).par = s.par := rfl
@[simp] theorem State.setV_nextDue (s : State) (x : Nibble) (b : Byte) : (s.setV x b).nextDue = s.nextDue := rfl
@[simp] theorem State.setV_now (s : State) (x : Nibble) (b : Byte) : (s.setV x b).now = s.now := rfl
@[simp] theorem State.setV_keyDown (s : State) (x : Nibble) (b : Byte) : (s.setV x b).keyDown = s.keyDown := rfl
@[simp] theorem State.setV_lastKey (s : State) (x : Nibble) (b : Byte) : (s.setV x b).lastKey = s.lastKey := rfl
@[simp] theorem State.setV_quit (s : State) (x : Nibble) (b : Byte) : (s.setV x b).quit = s.quit := rfl
@[simp] theorem State.setV_redraw (s : State) (x : Nibble) (b : Byte) : (s.setV x b).redraw = s.redraw := rfl
@[simp] theorem State.setV_outcome (s : State) (x : Nibble) (b : Byte) : (s.setV x b).outcome = s.outcome := rfl
@[simp] theorem State.setV_fbOut (s : State) (x : Nibble) (b : Byte) : (s.setV x b).fbOut = s.fbOut := rfl
@[simp] theorem State.setV_rndDraws (s : State) (x : Nibble) (b : Byte) : (s.setV x b).rndDraws = s.rndDraws := rfl
@[simp] theorem State.setV_schedule (s : State) (x : Nibble) (b : Byte) : (s.setV x b).schedule = s.schedule := rfl

/-! ### State.setI -/

@[simp] theorem State.setI_v (s : State) (w : Word) : (s.setI w).v = s.v := rfl
@[simp] theorem State.setI_i (s : State) (w : Word) : (s.setI w).i = w := rfl
@[simp] theorem State.setI_pc (s : State) (w : Word) : (s.setI w).pc = s.pc := rfl
@[simp] theorem State.setI_stack (s : State) (w : Word) : (s.setI w).stack = s.stack := rfl
@[simp] theorem State.setI_sp (s : State) (w : Word) : (s.setI w).sp = s.sp := rfl
@[simp] theorem State.setI_dt (s : State) (w : Word) : (s.setI w).dt = s.dt := rfl
@[simp] theorem State.setI_st (s : State) (w : Word) : (s.setI w).st = s.st := rfl
@[simp] theorem State.setI_mem (s : State) (w : Word) : (s.setI w).mem = s.mem := rfl
@[simp] theorem State.setI_fb (s : State) (w : Word) : (s.setI w).fb = s.fb := rfl
@[simp] theorem State.setI_kwState (s : State) (w : Word) : (s.setI w).kwState = s.kwState := rfl
@[simp] theorem State.setI_kwKey (s : State) (w : Word) : (s.setI w).kwKey = s.kwKey := rfl
@[simp] theorem State.setI_halted (s : State) (w : Word) : (s.setI w).halted = s.halted := rfl
@[simp] theorem State.setI_faultCode (s : State) (w : Word) : (s.setI w).faultCode = s.faultCode := rfl
@[simp] theorem State.setI_faultPc (s : State) (w : Word) : (s.setI w).faultPc = s.faultPc := rfl
@[simp] theorem State.setI_faultAddr (s : State) (w : Word) : (s.setI w).faultAddr = s.faultAddr := rfl
@[simp] theorem State.setI_cfg (s : State) (w : Word) : (s.setI w).cfg = s.cfg := rfl
@[simp] theorem State.setI_par (s : State) (w : Word) : (s.setI w).par = s.par := rfl
@[simp] theorem State.setI_nextDue (s : State) (w : Word) : (s.setI w).nextDue = s.nextDue := rfl
@[simp] theorem State.setI_now (s : State) (w : Word) : (s.setI w).now = s.now := rfl
@[simp] theorem State.setI_keyDown (s : State) (w : Word) : (s.setI w).keyDown = s.keyDown := rfl
@[simp] theorem State.setI_lastKey (s : State) (w : Word) : (s.setI w).lastKey = s.lastKey := rfl
@[simp] theorem State.setI_quit (s : State) (w : Word) : (s.setI w).quit = s.quit := rfl
@[simp] theorem State.setI_redraw (s : State) (w : Word) : (s.setI w).redraw = s.redraw := rfl
@[simp] theorem State.setI_outcome (s : State) (w : Word) : (s.setI w).outcome = s.outcome := rfl
@[simp] theorem State.setI_fbOut (s : State) (w : Word) : (s.setI w).fbOut = s.fbOut := rfl
@[simp] theorem State.setI_rndDraws (s : State) (w : Word) : (s.setI w).rndDraws = s.rndDraws := rfl
@[simp] theorem State.setI_schedule (s : State) (w : Word) : (s.setI w).schedule = s.schedule := rfl

/-! ### State.setPc -/

@[simp] theorem State.setPc_v (s : State) (w : Word) : (s.setPc w).v = s.v := rfl
@[simp] theorem State.setPc_i (s : State) (w : Word) : (s.setPc w).i = s.i := rfl
@[simp] theorem State.setPc_pc (s : State) (w : Word) : (s.setPc w).pc = w := rfl
@[simp] theorem State.setPc_stack (s : State) (w : Word) : (s.setPc w).stack = s.stack := rfl
@[simp] theorem State.setPc_sp (s : State) (w : Word) : (s.setPc w).sp = s.sp := rfl
@[simp] theorem State.setPc_dt (s : State) (w : Word) : (s.setPc w).dt = s.dt := rfl
@[simp] theorem State.setPc_st (s : State) (w : Word) : (s.setPc w).st = s.st := rfl
@[simp] theorem State.setPc_mem (s : State) (w : Word) : (s.setPc w).mem = s.mem := rfl
@[simp] theorem State.setPc_fb (s : State) (w : Word) : (s.setPc w).fb = s.fb := rfl
@[simp] theorem State.setPc_kwState (s : State) (w : Word) : (s.setPc w).kwState = s.kwState := rfl
@[simp] theorem State.setPc_kwKey (s : State) (w : Word) : (s.setPc w).kwKey = s.kwKey := rfl
@[simp] theorem State.setPc_halted (s : State) (w : Word) : (s.setPc w).halted = s.halted := rfl
@[simp] theorem State.setPc_faultCode (s : State) (w : Word) : (s.setPc w).faultCode = s.faultCode := rfl
@[simp] theorem State.setPc_faultPc (s : State) (w : Word) : (s.setPc w).faultPc = s.faultPc := rfl
@[simp] theorem State.setPc_faultAddr (s : State) (w : Word) : (s.setPc w).faultAddr = s.faultAddr := rfl
@[simp] theorem State.setPc_cfg (s : State) (w : Word) : (s.setPc w).cfg = s.cfg := rfl
@[simp] theorem State.setPc_par (s : State) (w : Word) : (s.setPc w).par = s.par := rfl
@[simp] theorem State.setPc_nextDue (s : State) (w : Word) : (s.setPc w).nextDue = s.nextDue := rfl
@[simp] theorem State.setPc_now (s : State) (w : Word) : (s.setPc w).now = s.now := rfl
@[simp] theorem State.setPc_keyDown (s : State) (w : Word) : (s.setPc w).keyDown = s.keyDown := rfl
@[simp] theorem State.setPc_lastKey (s : State) (w : Word) : (s.setPc w).lastKey = s.lastKey := rfl
@[simp] theorem State.setPc_quit (s : State) (w : Word) : (s.setPc w).quit = s.quit := rfl
@[simp] theorem State.setPc_redraw (s : State) (w : Word) : (s.setPc w).redraw = s.redraw := rfl
@[simp] theorem State.setPc_outcome (s : State) (w : Word) : (s.setPc w).outcome = s.outcome := rfl
@[simp] theorem State.setPc_fbOut (s : State) (w : Word) : (s.setPc w).fbOut = s.fbOut := rfl
@[simp] theorem State.setPc_rndDraws (s : State) (w : Word) : (s.setPc w).rndDraws = s.rndDraws := rfl
@[simp] theorem State.setPc_schedule (s : State) (w : Word) : (s.setPc w).schedule = s.schedule := rfl

/-! ### State.skip -/

@[simp] theorem State.skip_v (s : State) : (s.skip).v = s.v := rfl
@[simp] theorem State.skip_i (s : State) : (s.skip).i = s.i := rfl
@[simp] theorem State.skip_pc (s : State) : (s.skip).pc = s.pc + 2 := rfl
@[simp] theorem State.skip_stack (s : State) : (s.skip).stack = s.stack := rfl
@[simp] theorem State.skip_sp (s : State) : (s.skip).sp = s.sp := rfl
@[simp] theorem State.skip_dt (s : State) : (s.skip).dt = s.dt := rfl
@[simp] theorem State.skip_st (s : State) : (s.skip).st = s.st := rfl
@[simp] theorem State.skip_mem (s : State) : (s.skip).mem = s.mem := rfl
@[simp] theorem State.skip_fb (s : State) : (s.skip).fb = s.fb := rfl
@[simp] theorem State.skip_kwState (s : State) : (s.skip).kwState = s.kwState := rfl
@[simp] theorem State.skip_kwKey (s : State) : (s.skip).kwKey = s.kwKey := rfl
@[simp] theorem State.skip_halted (s : State) : (s.skip).halted = s.halted := rfl
@[simp] theorem State.skip_faultCode (s : State) : (s.skip).faultCode = s.faultCode := rfl
@[simp] theorem State.skip_faultPc (s : State) : (s.skip).faultPc = s.faultPc := rfl
@[simp] theorem State.skip_faultAddr (s : State) : (s.skip).faultAddr = s.faultAddr := rfl
@[simp] theorem State.skip_cfg (s : State) : (s.skip).cfg = s.cfg := rfl
@[simp] theorem State.skip_par (s : State) : (s.skip).par = s.par := rfl
@[simp] theorem State.skip_nextDue (s : State) : (s.skip).nextDue = s.nextDue := rfl
@[simp] theorem State.skip_now (s : State) : (s.skip).now = s.now := rfl
@[simp] theorem State.skip_keyDown (s : State) : (s.skip).keyDown = s.keyDown := rfl
@[simp] theorem State.skip_lastKey (s : State) : (s.skip).lastKey = s.lastKey := rfl
@[simp] theorem State.skip_quit (s : State) : (s.skip).quit = s.quit := rfl
@[simp] theorem State.skip_redraw (s : State) : (s.skip).redraw = s.redraw := rfl
@[simp] theorem State.skip_outcome (s : State) : (s.skip).outcome = s.outcome := rfl
@[simp] theorem State.skip_fbOut (s : State) : (s.skip).fbOut = s.fbOut := rfl
@[simp] theorem State.skip_rndDraws (s : State) : (s.skip).rndDraws = s.rndDraws := rfl
@[simp] theorem State.skip_schedule (s : State) : (s.skip).schedule = s.schedule := rfl

/-! ### State.hold -/

@[simp] theorem State.hold_v (s : State) : (s.hold).v = s.v := rfl
@[simp] theorem State.hold_i (s : State) : (s.hold).i = s.i := rfl
@[simp] theorem State.hold_pc (s : State) : (s.hold).pc = s.pc - 2 := rfl
@[simp] theorem State.hold_stack (s : State) : (s.hold).stack = s.stack := rfl
@[simp] theorem State.hold_sp (s : State) : (s.hold).sp = s.sp := rfl
@[simp] theorem State.hold_dt (s : State) : (s.hold).dt = s.dt := rfl
@[simp] theorem State.hold_st (s : State) : (s.hold).st = s.st := rfl
@[simp] theorem State.hold_mem (s : State) : (s.hold).mem = s.mem := rfl
@[simp] theorem State.hold_fb (s : State) : (s.hold).fb = s.fb := rfl
@[simp] theorem State.hold_kwState (s : State) : (s.hold).kwState = s.kwState := rfl
@[simp] theorem State.hold_kwKey (s : State) : (s.hold).kwKey = s.kwKey := rfl
@[simp] theorem State.hold_halted (s : State) : (s.hold).halted = s.halted := rfl
@[simp] theorem State.hold_faultCode (s : State) : (s.hold).faultCode = s.faultCode := rfl
@[simp] theorem State.hold_faultPc (s : State) : (s.hold).faultPc = s.faultPc := rfl
@[simp] theorem State.hold_faultAddr (s : State) : (s.hold).faultAddr = s.faultAddr := rfl
@[simp] theorem State.hold_cfg (s : State) : (s.hold).cfg = s.cfg := rfl
@[simp] theorem State.hold_par (s : State) : (s.hold).par = s.par := rfl
@[simp] theorem State.hold_nextDue (s : State) : (s.hold).nextDue = s.nextDue := rfl
@[simp] theorem State.hold_now (s : State) : (s.hold).now = s.now := rfl
@[simp] theorem State.hold_keyDown (s : State) : (s.hold).keyDown = s.keyDown := rfl
@[simp] theorem State.hold_lastKey (s : State) : (s.hold).lastKey = s.lastKey := rfl
@[simp] theorem State.hold_quit (s : State) : (s.hold).quit = s.quit := rfl
@[simp] theorem State.hold_redraw (s : State) : (s.hold).redraw = s.redraw := rfl
@[simp] theorem State.hold_outcome (s : State) : (s.hold).outcome = s.outcome := rfl
@[simp] theorem State.hold_fbOut (s : State) : (s.hold).fbOut = s.fbOut := rfl
@[simp] theorem State.hold_rndDraws (s : State) : (s.hold).rndDraws = s.rndDraws := rfl
@[simp] theorem State.hold_schedule (s : State) : (s.hold).schedule = s.schedule := rfl

/-! ### State.push -/

@[simp] theorem State.push_v (s : State) (w : Word) (h : s.sp.val < 16) : (s.push w h).v = s.v := rfl
@[simp] theorem State.push_i (s : State) (w : Word) (h : s.sp.val < 16) : (s.push w h).i = s.i := rfl
@[simp] theorem State.push_pc (s : State) (w : Word) (h : s.sp.val < 16) : (s.push w h).pc = s.pc := rfl
@[simp] theorem State.push_stack (s : State) (w : Word) (h : s.sp.val < 16) : (s.push w h).stack = s.stack.set s.sp.val w h := rfl
@[simp] theorem State.push_sp (s : State) (w : Word) (h : s.sp.val < 16) : (s.push w h).sp = ⟨s.sp.val + 1, Nat.succ_lt_succ h⟩ := rfl
@[simp] theorem State.push_dt (s : State) (w : Word) (h : s.sp.val < 16) : (s.push w h).dt = s.dt := rfl
@[simp] theorem State.push_st (s : State) (w : Word) (h : s.sp.val < 16) : (s.push w h).st = s.st := rfl
@[simp] theorem State.push_mem (s : State) (w : Word) (h : s.sp.val < 16) : (s.push w h).mem = s.mem := rfl
@[simp] theorem State.push_fb (s : State) (w : Word) (h : s.sp.val < 16) : (s.push w h).fb = s.fb := rfl
@[simp] theorem State.push_kwState (s : State) (w : Word) (h : s.sp.val < 16) : (s.push w h).kwState = s.kwState := rfl
@[simp] theorem State.push_kwKey (s : State) (w : Word) (h : s.sp.val < 16) : (s.push w h).kwKey = s.kwKey := rfl
@[simp] theorem State.push_halted (s : State) (w : Word) (h : s.sp.val < 16) : (s.push w h).halted = s.halted := rfl
@[simp] theorem State.push_faultCode (s : State) (w : Word) (h : s.sp.val < 16) : (s.push w h).faultCode = s.faultCode := rfl
@[simp] theorem State.push_faultPc (s : State) (w : Word) (h : s.sp.val < 16) : (s.push w h).faultPc = s.faultPc := rfl
@[simp] theorem State.push_faultAddr (s : State) (w : Word) (h : s.sp.val < 16) : (s.push w h).faultAddr = s.faultAddr := rfl
@[simp] theorem State.push_cfg (s : State) (w : Word) (h : s.sp.val < 16) : (s.push w h).cfg = s.cfg := rfl
@[simp] theorem State.push_par (s : State) (w : Word) (h : s.sp.val < 16) : (s.push w h).par = s.par := rfl
@[simp] theorem State.push_nextDue (s : State) (w : Word) (h : s.sp.val < 16) : (s.push w h).nextDue = s.nextDue := rfl
@[simp] theorem State.push_now (s : State) (w : Word) (h : s.sp.val < 16) : (s.push w h).now = s.now := rfl
@[simp] theorem State.push_keyDown (s : State) (w : Word) (h : s.sp.val < 16) : (s.push w h).keyDown = s.keyDown := rfl
@[simp] theorem State.push_lastKey (s : State) (w : Word) (h : s.sp.val < 16) : (s.push w h).lastKey = s.lastKey := rfl
@[simp] theorem State.push_quit (s : State) (w : Word) (h : s.sp.val < 16) : (s.push w h).quit = s.quit := rfl
@[simp] theorem State.push_redraw (s : State) (w : Word) (h : s.sp.val < 16) : (s.push w h).redraw = s.redraw := rfl
@[simp] theorem State.push_outcome (s : State) (w : Word) (h : s.sp.val < 16) : (s.push w h).outcome = s.outcome := rfl
@[simp] theorem State.push_fbOut (s : State) (w : Word) (h : s.sp.val < 16) : (s.push w h).fbOut = s.fbOut := rfl
@[simp] theorem State.push_rndDraws (s : State) (w : Word) (h : s.sp.val < 16) : (s.push w h).rndDraws = s.rndDraws := rfl
@[simp] theorem State.push_schedule (s : State) (w : Word) (h : s.sp.val < 16) : (s.push w h).schedule = s.schedule := rfl

/-! ### State.drop -/

@[simp] theorem State.drop_v (s : State) : (s.drop).v = s.v := rfl
@[simp] theorem State.drop_i (s : State) : (s.drop).i = s.i := rfl
@[simp] theorem State.drop_pc (s : State) : (s.drop).pc = s.pc := rfl
@[simp] theorem State.drop_stack (s : State) : (s.drop).stack = s.stack := rfl
@[simp] theorem State.drop_sp (s : State) : (s.drop).sp = ⟨s.sp.val - 1, Nat.lt_of_le_of_lt (Nat.sub_le _ _) s.sp.isLt⟩ := rfl
@[simp] theorem State.drop_dt (s : State) : (s.drop).dt = s.dt := rfl
@[simp] theorem State.drop_st (s : State) : (s.drop).st = s.st := rfl
@[simp] theorem State.drop_mem (s : State) : (s.drop).mem = s.mem := rfl
@[simp] theorem State.drop_fb (s : State) : (s.drop).fb = s.fb := rfl
@[simp] theorem State.drop_kwState (s : State) : (s.drop).kwState = s.kwState := rfl
@[simp] theorem State.drop_kwKey (s : State) : (s.drop).kwKey = s.kwKey := rfl
@[simp] theorem State.drop_halted (s : State) : (s.drop).halted = s.halted := rfl
@[simp] theorem State.drop_faultCode (s : State) : (s.drop).faultCode = s.faultCode := rfl
@[simp] theorem State.drop_faultPc (s : State) : (s.drop).faultPc = s.faultPc := rfl
@[simp] theorem State.drop_faultAddr (s : State) : (s.drop).faultAddr = s.faultAddr := rfl
@[simp] theorem State.drop_cfg (s : State) : (s.drop).cfg = s.cfg := rfl
@[simp] theorem State.drop_par (s : State) : (s.drop).par = s.par := rfl
@[simp] theorem State.drop_nextDue (s : State) : (s.drop).nextDue = s.nextDue := rfl
@[simp] theorem State.drop_now (s : State) : (s.drop).now = s.now := rfl
@[simp] theorem State.drop_keyDown (s : State) : (s.drop).keyDown = s.keyDown := rfl
@[simp] theorem State.drop_lastKey (s : State) : (s.drop).lastKey = s.lastKey := rfl
@[simp] theorem State.drop_quit (s : State) : (s.drop).quit = s.quit := rfl
@[simp] theorem State.drop_redraw (s : State) : (s.drop).redraw = s.redraw := rfl
@[simp] theorem State.drop_outcome (s : State) : (s.drop).outcome = s.outcome := rfl
@[simp] theorem State.drop_fbOut (s : State) : (s.drop).fbOut = s.fbOut := rfl
@[simp] theorem State.drop_rndDraws (s : State) : (s.drop).rndDraws = s.rndDraws := rfl
@[simp] theorem State.drop_schedule (s : State) : (s.drop).schedule = s.schedule := rfl

/-! ### State.writeBytes -/

@[simp] theorem State.writeBytes_v (s : State) (a : Nat) (bs : List Byte) : (s.writeBytes a bs).v = s.v := rfl
@[simp] theorem State.writeBytes_i (s : State) (a : Nat) (bs : List Byte) : (s.writeBytes a bs).i = s.i := rfl
@[simp] theorem State.writeBytes_pc (s : State) (a : Nat) (bs : List Byte) : (s.writeBytes a bs).pc = s.pc := rfl
@[simp] theorem State.writeBytes_stack (s : State) (a : Nat) (bs : List Byte) : (s.writeBytes a bs).stack = s.stack := rfl
@[simp] theorem State.writeBytes_sp (s : State) (a : Nat) (bs : List Byte) : (s.writeBytes a bs).sp = s.sp := rfl
@[simp] theorem State.writeBytes_dt (s : State) (a : Nat) (bs : List Byte) : (s.writeBytes a bs).dt = s.dt := rfl
@[simp] theorem State.writeBytes_st (s : State) (a : Nat) (bs : List Byte) : (s.writeBytes a bs).st = s.st := rfl
@[simp] theorem State.writeBytes_mem (s : State) (a : Nat) (bs : List Byte) : (s.writeBytes a bs).mem = Memory.writeBytes s.mem a bs := rfl
@[simp] theorem State.writeBytes_fb (s : State) (a : Nat) (bs : List Byte) : (s.writeBytes a bs).fb = s.fb := rfl
@[simp] theorem State.writeBytes_kwState (s : State) (a : Nat) (bs : List Byte) : (s.writeBytes a bs).kwState = s.kwState := rfl
@[simp] theorem State.writeBytes_kwKey (s : State) (a : Nat) (bs : List Byte) : (s.writeBytes a bs).kwKey = s.kwKey := rfl
@[simp] theorem State.writeBytes_halted (s : State) (a : Nat) (bs : List Byte) : (s.writeBytes a bs).halted = s.halted := rfl
@[simp] theorem State.writeBytes_faultCode (s : State) (a : Nat) (bs : List Byte) : (s.writeBytes a bs).faultCode = s.faultCode := rfl
@[simp] theorem State.writeBytes_faultPc (s : State) (a : Nat) (bs : List Byte) : (s.writeBytes a bs).faultPc = s.faultPc := rfl
@[simp] theorem State.writeBytes_faultAddr (s : State) (a : Nat) (bs : List Byte) : (s.writeBytes a bs).faultAddr = s.faultAddr := rfl
@[simp] theorem State.writeBytes_cfg (s : State) (a : Nat) (bs : List Byte) : (s.writeBytes a bs).cfg = s.cfg := rfl
@[simp] theorem State.writeBytes_par (s : State) (a : Nat) (bs : List Byte) : (s.writeBytes a bs).par = s.par := rfl
@[simp] theorem State.writeBytes_nextDue (s : State) (a : Nat) (bs : List Byte) : (s.writeBytes a bs).nextDue = s.nextDue := rfl
@[simp] theorem State.writeBytes_now (s : State) (a : Nat) (bs : List Byte) : (s.writeBytes a bs).now = s.now := rfl
@[simp] theorem State.writeBytes_keyDown (s : State) (a : Nat) (bs : List Byte) : (s.writeBytes a bs).keyDown = s.keyDown := rfl
@[simp] theorem State.writeBytes_lastKey (s : State) (a : Nat) (bs : List Byte) : (s.writeBytes a bs).lastKey = s.lastKey := rfl
@[simp] theorem State.writeBytes_quit (s : State) (a : Nat) (bs : List Byte) : (s.writeBytes a bs).quit = s.quit := rfl
@[simp] theorem State.writeBytes_redraw (s : State) (a : Nat) (bs : List Byte) : (s.writeBytes a bs).redraw = s.redraw := rfl
@[simp] theorem State.writeBytes_outcome (s : State) (a : Nat) (bs : List Byte) : (s.writeBytes a bs).outcome = s.outcome := rfl
@[simp] theorem State.writeBytes_fbOut (s : State) (a : Nat) (bs : List Byte) : (s.writeBytes a bs).fbOut = s.fbOut := rfl
@[simp] theorem State.writeBytes_rndDraws (s : State) (a : Nat) (bs : List Byte) : (s.writeBytes a bs).rndDraws = s.rndDraws := rfl
@[simp] theorem State.writeBytes_schedule (s : State) (a : Nat) (bs : List Byte) : (s.writeBytes a bs).schedule = s.schedule := rfl

/-! ### State.setFlag -/

@[simp] theorem State.setFlag_v (s : State) (f : Bool) : (s.setFlag f).v = s.v.set 15 (flagByte f) := rfl
@[simp] theorem State.setFlag_i (s : State) (f : Bool) : (s.setFlag f).i = s.i := rfl
@[simp] theorem State.setFlag_pc (s : State) (f : Bool) : (s.setFlag f).pc = s.pc := rfl
@[simp] theorem State.setFlag_stack (s : State) (f : Bool) : (s.setFlag f).stack = s.stack := rfl
@[simp] theorem State.setFlag_sp (s : State) (f : Bool) : (s.setFlag f).sp = s.sp := rfl
@[simp] theorem State.setFlag_dt (s : State) (f : Bool) : (s.setFlag f).dt = s.dt := rfl
@[simp] theorem State.setFlag_st (s : State) (f : Bool) : (s.setFlag f).st = s.st := rfl
@[simp] theorem State.setFlag_mem (s : State) (f : Bool) : (s.setFlag f).mem = s.mem := rfl
@[simp] theorem State.setFlag_fb (s : State) (f : Bool) : (s.setFlag f).fb = s.fb := rfl
@[simp] theorem State.setFlag_kwState (s : State) (f : Bool) : (s.setFlag f).kwState = s.kwState := rfl
@[simp] theorem State.setFlag_kwKey (s : State) (f : Bool) : (s.setFlag f).kwKey = s.kwKey := rfl
@[simp] theorem State.setFlag_halted (s : State) (f : Bool) : (s.setFlag f).halted = s.halted := rfl
@[simp] theorem State.setFlag_faultCode (s : State) (f : Bool) : (s.setFlag f).faultCode = s.faultCode := rfl
@[simp] theorem State.setFlag_faultPc (s : State) (f : Bool) : (s.setFlag f).faultPc = s.faultPc := rfl
@[simp] theorem State.setFlag_faultAddr (s : State) (f : Bool) : (s.setFlag f).faultAddr = s.faultAddr := rfl
@[simp] theorem State.setFlag_cfg (s : State) (f : Bool) : (s.setFlag f).cfg = s.cfg := rfl
@[simp] theorem State.setFlag_par (s : State) (f : Bool) : (s.setFlag f).par = s.par := rfl
@[simp] theorem State.setFlag_nextDue (s : State) (f : Bool) : (s.setFlag f).nextDue = s.nextDue := rfl
@[simp] theorem State.setFlag_now (s : State) (f : Bool) : (s.setFlag f).now = s.now := rfl
@[simp] theorem State.setFlag_keyDown (s : State) (f : Bool) : (s.setFlag f).keyDown = s.keyDown := rfl
@[simp] theorem State.setFlag_lastKey (s : State) (f : Bool) : (s.setFlag f).lastKey = s.lastKey := rfl
@[simp] theorem State.setFlag_quit (s : State) (f : Bool) : (s.setFlag f).quit = s.quit := rfl
@[simp] theorem State.setFlag_redraw (s : State) (f : Bool) : (s.setFlag f).redraw = s.redraw := rfl
@[simp] theorem State.setFlag_outcome (s : State) (f : Bool) : (s.setFlag f).outcome = s.outcome := rfl
@[simp] theorem State.setFlag_fbOut (s : State) (f : Bool) : (s.setFlag f).fbOut = s.fbOut := rfl
@[simp] theorem State.setFlag_rndDraws (s : State) (f : Bool) : (s.setFlag f).rndDraws = s.rndDraws := rfl
@[simp] theorem State.setFlag_schedule (s : State) (f : Bool) : (s.setFlag f).schedule = s.schedule := rfl

/-! ### State.present -/

@[simp] theorem State.present_v (s : State) : (s.present).v = s.v := rfl
@[simp] theorem State.present_i (s : State) : (s.present).i = s.i := rfl
@[simp] theorem State.present_pc (s : State) : (s.present).pc = s.pc := rfl
@[simp] theorem State.present_stack (s : State) : (s.present).stack = s.stack := rfl
@[simp] theorem State.present_sp (s : State) : (s.present).sp = s.sp := rfl
@[simp] theorem State.present_dt (s : State) : (s.present).dt = s.dt := rfl
@[simp] theorem State.present_st (s : State) : (s.present).st = s.st := rfl
@[simp] theorem State.present_mem (s : State) : (s.present).mem = s.mem := rfl
@[simp] theorem State.present_fb (s : State) : (s.present).fb = s.fb := rfl
@[simp] theorem State.present_kwState (s : State) : (s.present).kwState = s.kwState := rfl
@[simp] theorem State.present_kwKey (s : State) : (s.present).kwKey = s.kwKey := rfl
@[simp] theorem State.present_halted (s : State) : (s.present).halted = s.halted := rfl
@[simp] theorem State.present_faultCode (s : State) : (s.present).faultCode = s.faultCode := rfl
@[simp] theorem State.present_faultPc (s : State) : (s.present).faultPc = s.faultPc := rfl
@[simp] theorem State.present_faultAddr (s : State) : (s.present).faultAddr = s.faultAddr := rfl
@[simp] theorem State.present_cfg (s : State) : (s.present).cfg = s.cfg := rfl
@[simp] theorem State.present_par (s : State) : (s.present).par = s.par := rfl
@[simp] theorem State.present_nextDue (s : State) : (s.present).nextDue = s.nextDue := rfl
@[simp] theorem State.present_now (s : State) : (s.present).now = s.now := rfl
@[simp] theorem State.present_keyDown (s : State) : (s.present).keyDown = s.keyDown := rfl
@[simp] theorem State.present_lastKey (s : State) : (s.present).lastKey = s.lastKey := rfl
@[simp] theorem State.present_quit (s : State) : (s.present).quit = s.quit := rfl
@[simp] theorem State.present_redraw (s : State) : (s.present).redraw = true := rfl
@[simp] theorem State.present_outcome (s : State) : (s.present).outcome = s.outcome := rfl
@[simp] theorem State.present_fbOut (s : State) : (s.present).fbOut = some s.fb := rfl
@[simp] theorem State.present_rndDraws (s : State) : (s.present).rndDraws = s.rndDraws := rfl
@[simp] theorem State.present_schedule (s : State) : (s.present).schedule = s.schedule := rfl

/-! ### State.tick60 -/

@[simp] theorem State.tick60_v (s : State) : (s.tick60).v = s.v := rfl
@[simp] theorem State.tick60_i (s : State) : (s.tick60).i = s.i := rfl
@[simp] theorem State.tick60_pc (s : State) : (s.tick60).pc = s.pc := rfl
@[simp] theorem State.tick60_stack (s : State) : (s.tick60).stack = s.stack := rfl
@[simp] theorem State.tick60_sp (s : State) : (s.tick60).sp = s.sp := rfl
@[simp] theorem State.tick60_dt (s : State) : (s.tick60).dt = countDown s.dt := rfl
@[simp] theorem State.tick60_st (s : State) : (s.tick60).st = countDown s.st := rfl
@[simp] theorem State.tick60_mem (s : State) : (s.tick60).mem = s.mem := rfl
@[simp] theorem State.tick60_fb (s : State) : (s.tick60).fb = s.fb := rfl
@[simp] theorem State.tick60_kwState (s : State) : (s.tick60).kwState = s.kwState := rfl
@[simp] theorem State.tick60_kwKey (s : State) : (s.tick60).kwKey = s.kwKey := rfl
@[simp] theorem State.tick60_halted (s : State) : (s.tick60).halted = s.halted := rfl
@[simp] theorem State.tick60_faultCode (s : State) : (s.tick60).faultCode = s.faultCode := rfl
@[simp] theorem State.tick60_faultPc (s : State) : (s.tick60).faultPc = s.faultPc := rfl
@[simp] theorem State.tick60_faultAddr (s : State) : (s.tick60).faultAddr = s.faultAddr := rfl
@[simp] theorem State.tick60_cfg (s : State) : (s.tick60).cfg = s.cfg := rfl
@[simp] theorem State.tick60_par (s : State) : (s.tick60).par = s.par := rfl
@[simp] theorem State.tick60_nextDue (s : State) : (s.tick60).nextDue = s.nextDue := rfl
@[simp] theorem State.tick60_now (s : State) : (s.tick60).now = s.now := rfl
@[simp] theorem State.tick60_keyDown (s : State) : (s.tick60).keyDown = s.keyDown := rfl
@[simp] theorem State.tick60_lastKey (s : State) : (s.tick60).lastKey = s.lastKey := rfl
@[simp] theorem State.tick60_quit (s : State) : (s.tick60).quit = s.quit := rfl
@[simp] theorem State.tick60_redraw (s : State) : (s.tick60).redraw = s.redraw := rfl
@[simp] theorem State.tick60_outcome (s : State) : (s.tick60).outcome = s.outcome := rfl
@[simp] theorem State.tick60_fbOut (s : State) : (s.tick60).fbOut = s.fbOut := rfl
@[simp] theorem State.tick60_rndDraws (s : State) : (s.tick60).rndDraws = s.rndDraws := rfl
@[simp] theorem State.tick60_schedule (s : State) : (s.tick60).schedule = s.schedule := rfl

/-! ### State.advanceDue -/

@[simp] theorem State.advanceDue_v (s : State) : (s.advanceDue).v = s.v := rfl
@[simp] theorem State.advanceDue_i (s : State) : (s.advanceDue).i = s.i := rfl
@[simp] theorem State.advanceDue_pc (s : State) : (s.advanceDue).pc = s.pc := rfl
@[simp] theorem State.advanceDue_stack (s : State) : (s.advanceDue).stack = s.stack := rfl
@[simp] theorem State.advanceDue_sp (s : State) : (s.advanceDue).sp = s.sp := rfl
@[simp] theorem State.advanceDue_dt (s : State) : (s.advanceDue).dt = s.dt := rfl
@[simp] theorem State.advanceDue_st (s : State) : (s.advanceDue).st = s.st := rfl
@[simp] theorem State.advanceDue_mem (s : State) : (s.advanceDue).mem = s.mem := rfl
@[simp] theorem State.advanceDue_fb (s : State) : (s.advanceDue).fb = s.fb := rfl
@[simp] theorem State.advanceDue_kwState (s : State) : (s.advanceDue).kwState = s.kwState := rfl
@[simp] theorem State.advanceDue_kwKey (s : State) : (s.advanceDue).kwKey = s.kwKey := rfl
@[simp] theorem State.advanceDue_halted (s : State) : (s.advanceDue).halted = s.halted := rfl
@[simp] theorem State.advanceDue_faultCode (s : State) : (s.advanceDue).faultCode = s.faultCode := rfl
@[simp] theorem State.advanceDue_faultPc (s : State) : (s.advanceDue).faultPc = s.faultPc := rfl
@[simp] theorem State.advanceDue_faultAddr (s : State) : (s.advanceDue).faultAddr = s.faultAddr := rfl
@[simp] theorem State.advanceDue_cfg (s : State) : (s.advanceDue).cfg = s.cfg := rfl
@[simp] theorem State.advanceDue_par (s : State) : (s.advanceDue).par = s.par := rfl
@[simp] theorem State.advanceDue_nextDue (s : State) : (s.advanceDue).nextDue = s.nextDue + 1 := rfl
@[simp] theorem State.advanceDue_now (s : State) : (s.advanceDue).now = s.now := rfl
@[simp] theorem State.advanceDue_keyDown (s : State) : (s.advanceDue).keyDown = s.keyDown := rfl
@[simp] theorem State.advanceDue_lastKey (s : State) : (s.advanceDue).lastKey = s.lastKey := rfl
@[simp] theorem State.advanceDue_quit (s : State) : (s.advanceDue).quit = s.quit := rfl
@[simp] theorem State.advanceDue_redraw (s : State) : (s.advanceDue).redraw = s.redraw := rfl
@[simp] theorem State.advanceDue_outcome (s : State) : (s.advanceDue).outcome = s.outcome := rfl
@[simp] theorem State.advanceDue_fbOut (s : State) : (s.advanceDue).fbOut = s.fbOut := rfl
@[simp] theorem State.advanceDue_rndDraws (s : State) : (s.advanceDue).rndDraws = s.rndDraws := rfl
@[simp] theorem State.advanceDue_schedule (s : State) : (s.advanceDue).schedule = s.schedule := rfl

/-! ### beginCycle -/

@[simp] theorem beginCycle_v (s : State) : (beginCycle s).v = s.v := rfl
@[simp] theorem beginCycle_i (s : State) : (beginCycle s).i = s.i := rfl
@[simp] theorem beginCycle_pc (s : State) : (beginCycle s).pc = s.pc := rfl
@[simp] theorem beginCycle_stack (s : State) : (beginCycle s).stack = s.stack := rfl
@[simp] theorem beginCycle_sp (s : State) : (beginCycle s).sp = s.sp := rfl
@[simp] theorem beginCycle_dt (s : State) : (beginCycle s).dt = s.dt := rfl
@[simp] theorem beginCycle_st (s : State) : (beginCycle s).st = s.st := rfl
@[simp] theorem beginCycle_mem (s : State) : (beginCycle s).mem = s.mem := rfl
@[simp] theorem beginCycle_fb (s : State) : (beginCycle s).fb = s.fb := rfl
@[simp] theorem beginCycle_kwState (s : State) : (beginCycle s).kwState = s.kwState := rfl
@[simp] theorem beginCycle_kwKey (s : State) : (beginCycle s).kwKey = s.kwKey := rfl
@[simp] theorem beginCycle_halted (s : State) : (beginCycle s).halted = s.halted := rfl
@[simp] theorem beginCycle_faultCode (s : State) : (beginCycle s).faultCode = s.faultCode := rfl
@[simp] theorem beginCycle_faultPc (s : State) : (beginCycle s).faultPc = s.faultPc := rfl
@[simp] theorem beginCycle_faultAddr (s : State) : (beginCycle s).faultAddr = s.faultAddr := rfl
@[simp] theorem beginCycle_cfg (s : State) : (beginCycle s).cfg = s.cfg := rfl
@[simp] theorem beginCycle_par (s : State) : (beginCycle s).par = s.par := rfl
@[simp] theorem beginCycle_nextDue (s : State) : (beginCycle s).nextDue = s.nextDue := rfl
@[simp] theorem beginCycle_now (s : State) : (beginCycle s).now = s.now := rfl
@[simp] theorem beginCycle_keyDown (s : State) : (beginCycle s).keyDown = s.keyDown := rfl
@[simp] theorem beginCycle_lastKey (s : State) : (beginCycle s).lastKey = s.lastKey := rfl
@[simp] theorem beginCycle_quit (s : State) : (beginCycle s).quit = s.quit := rfl
@[simp] theorem beginCycle_redraw (s : State) : (beginCycle s).redraw = false := rfl
@[simp] theorem beginCycle_outcome (s : State) : (beginCycle s).outcome = .ok := rfl
@[simp] theorem beginCycle_fbOut (s : State) : (beginCycle s).fbOut = s.fbOut := rfl
@[simp] theorem beginCycle_rndDraws (s : State) : (beginCycle s).rndDraws = s.rndDraws := rfl
@[simp] theorem beginCycle_schedule (s : State) : (beginCycle s).schedule = s.schedule := rfl

/-! ### State.waitDue changes the time alone -/

@[simp] theorem State.waitDue_v (s : State) : s.waitDue.v = s.v := by unfold State.waitDue; split <;> rfl
@[simp] theorem State.waitDue_i (s : State) : s.waitDue.i = s.i := by unfold State.waitDue; split <;> rfl
@[simp] theorem State.waitDue_pc (s : State) : s.waitDue.pc = s.pc := by unfold State.waitDue; split <;> rfl
@[simp] theorem State.waitDue_stack (s : State) : s.waitDue.stack = s.stack := by unfold State.waitDue; split <;> rfl
@[simp] theorem State.waitDue_sp (s : State) : s.waitDue.sp = s.sp := by unfold State.waitDue; split <;> rfl
@[simp] theorem State.waitDue_dt (s : State) : s.waitDue.dt = s.dt := by unfold State.waitDue; split <;> rfl
@[simp] theorem State.waitDue_st (s : State) : s.waitDue.st = s.st := by unfold State.waitDue; split <;> rfl
@[simp] theorem State.waitDue_mem (s : State) : s.waitDue.mem = s.mem := by unfold State.waitDue; split <;> rfl
@[simp] theorem State.waitDue_fb (s : State) : s.waitDue.fb = s.fb := by unfold State.waitDue; split <;> rfl
@[simp] theorem State.waitDue_kwState (s : State) : s.waitDue.kwState = s.kwState := by unfold State.waitDue; split <;> rfl
@[simp] theorem State.waitDue_kwKey (s : State) : s.waitDue.kwKey = s.kwKey := by unfold State.waitDue; split <;> rfl
@[simp] theorem State.waitDue_halted (s : State) : s.waitDue.halted = s.halted := by unfold State.waitDue; split <;> rfl
@[simp] theorem State.waitDue_faultCode (s : State) : s.waitDue.faultCode = s.faultCode := by unfold State.waitDue; split <;> rfl
@[simp] theorem State.waitDue_faultPc (s : State) : s.waitDue.faultPc = s.faultPc := by unfold State.waitDue; split <;> rfl
@[simp] theorem State.waitDue_faultAddr (s : State) : s.waitDue.faultAddr = s.faultAddr := by unfold State.waitDue; split <;> rfl
@[simp] theorem State.waitDue_cfg (s : State) : s.waitDue.cfg = s.cfg := by unfold State.waitDue; split <;> rfl
@[simp] theorem State.waitDue_par (s : State) : s.waitDue.par = s.par := by unfold State.waitDue; split <;> rfl
@[simp] theorem State.waitDue_nextDue (s : State) : s.waitDue.nextDue = s.nextDue := by unfold State.waitDue; split <;> rfl
@[simp] theorem State.waitDue_keyDown (s : State) : s.waitDue.keyDown = s.keyDown := by unfold State.waitDue; split <;> rfl
@[simp] theorem State.waitDue_lastKey (s : State) : s.waitDue.lastKey = s.lastKey := by unfold State.waitDue; split <;> rfl
@[simp] theorem State.waitDue_quit (s : State) : s.waitDue.quit = s.quit := by unfold State.waitDue; split <;> rfl
@[simp] theorem State.waitDue_redraw (s : State) : s.waitDue.redraw = s.redraw := by unfold State.waitDue; split <;> rfl
@[simp] theorem State.waitDue_outcome (s : State) : s.waitDue.outcome = s.outcome := by unfold State.waitDue; split <;> rfl
@[simp] theorem State.waitDue_fbOut (s : State) : s.waitDue.fbOut = s.fbOut := by unfold State.waitDue; split <;> rfl
@[simp] theorem State.waitDue_rndDraws (s : State) : s.waitDue.rndDraws = s.rndDraws := by unfold State.waitDue; split <;> rfl
@[simp] theorem State.waitDue_schedule (s : State) : s.waitDue.schedule = s.schedule := by unfold State.waitDue; split <;> rfl

/-! ### takeFault changes the latch, `halted` and `outcome` alone -/

@[simp] theorem takeFault_v (f : CycleOutcome) (fp fa : Word) (s : State) : (takeFault f fp fa s).v = s.v := by
  unfold takeFault; split <;> rfl
@[simp] theorem takeFault_i (f : CycleOutcome) (fp fa : Word) (s : State) : (takeFault f fp fa s).i = s.i := by
  unfold takeFault; split <;> rfl
@[simp] theorem takeFault_pc (f : CycleOutcome) (fp fa : Word) (s : State) : (takeFault f fp fa s).pc = s.pc := by
  unfold takeFault; split <;> rfl
@[simp] theorem takeFault_stack (f : CycleOutcome) (fp fa : Word) (s : State) : (takeFault f fp fa s).stack = s.stack := by
  unfold takeFault; split <;> rfl
@[simp] theorem takeFault_sp (f : CycleOutcome) (fp fa : Word) (s : State) : (takeFault f fp fa s).sp = s.sp := by
  unfold takeFault; split <;> rfl
@[simp] theorem takeFault_dt (f : CycleOutcome) (fp fa : Word) (s : State) : (takeFault f fp fa s).dt = s.dt := by
  unfold takeFault; split <;> rfl
@[simp] theorem takeFault_st (f : CycleOutcome) (fp fa : Word) (s : State) : (takeFault f fp fa s).st = s.st := by
  unfold takeFault; split <;> rfl
@[simp] theorem takeFault_mem (f : CycleOutcome) (fp fa : Word) (s : State) : (takeFault f fp fa s).mem = s.mem := by
  unfold takeFault; split <;> rfl
@[simp] theorem takeFault_fb (f : CycleOutcome) (fp fa : Word) (s : State) : (takeFault f fp fa s).fb = s.fb := by
  unfold takeFault; split <;> rfl
@[simp] theorem takeFault_kwState (f : CycleOutcome) (fp fa : Word) (s : State) : (takeFault f fp fa s).kwState = s.kwState := by
  unfold takeFault; split <;> rfl
@[simp] theorem takeFault_kwKey (f : CycleOutcome) (fp fa : Word) (s : State) : (takeFault f fp fa s).kwKey = s.kwKey := by
  unfold takeFault; split <;> rfl
@[simp] theorem takeFault_halted (f : CycleOutcome) (fp fa : Word) (s : State) : (takeFault f fp fa s).halted = (s.halted || s.par.haltOnFault) := by
  unfold takeFault; split <;> rfl
@[simp] theorem takeFault_faultCode (f : CycleOutcome) (fp fa : Word) (s : State) :
    (takeFault f fp fa s).faultCode = if s.faultCode = .ok then f else s.faultCode := by
  unfold takeFault; split <;> simp_all
@[simp] theorem takeFault_faultPc (f : CycleOutcome) (fp fa : Word) (s : State) :
    (takeFault f fp fa s).faultPc = if s.faultCode = .ok then fp else s.faultPc := by
  unfold takeFault; split <;> simp_all
@[simp] theorem takeFault_faultAddr (f : CycleOutcome) (fp fa : Word) (s : State) :
    (takeFault f fp fa s).faultAddr = if s.faultCode = .ok then fa else s.faultAddr := by
  unfold takeFault; split <;> simp_all
@[simp] theorem takeFault_cfg (f : CycleOutcome) (fp fa : Word) (s : State) : (takeFault f fp fa s).cfg = s.cfg := by
  unfold takeFault; split <;> rfl
@[simp] theorem takeFault_par (f : CycleOutcome) (fp fa : Word) (s : State) : (takeFault f fp fa s).par = s.par := by
  unfold takeFault; split <;> rfl
@[simp] theorem takeFault_nextDue (f : CycleOutcome) (fp fa : Word) (s : State) : (takeFault f fp fa s).nextDue = s.nextDue := by
  unfold takeFault; split <;> rfl
@[simp] theorem takeFault_now (f : CycleOutcome) (fp fa : Word) (s : State) : (takeFault f fp fa s).now = s.now := by
  unfold takeFault; split <;> rfl
@[simp] theorem takeFault_keyDown (f : CycleOutcome) (fp fa : Word) (s : State) : (takeFault f fp fa s).keyDown = s.keyDown := by
  unfold takeFault; split <;> rfl
@[simp] theorem takeFault_lastKey (f : CycleOutcome) (fp fa : Word) (s : State) : (takeFault f fp fa s).lastKey = s.lastKey := by
  unfold takeFault; split <;> rfl
@[simp] theorem takeFault_quit (f : CycleOutcome) (fp fa : Word) (s : State) : (takeFault f fp fa s).quit = s.quit := by
  unfold takeFault; split <;> rfl
@[simp] theorem takeFault_redraw (f : CycleOutcome) (fp fa : Word) (s : State) : (takeFault f fp fa s).redraw = s.redraw := by
  unfold takeFault; split <;> rfl
@[simp] theorem takeFault_outcome (f : CycleOutcome) (fp fa : Word) (s : State) : (takeFault f fp fa s).outcome = f := by
  unfold takeFault; split <;> rfl
@[simp] theorem takeFault_fbOut (f : CycleOutcome) (fp fa : Word) (s : State) : (takeFault f fp fa s).fbOut = s.fbOut := by
  unfold takeFault; split <;> rfl
@[simp] theorem takeFault_rndDraws (f : CycleOutcome) (fp fa : Word) (s : State) : (takeFault f fp fa s).rndDraws = s.rndDraws := by
  unfold takeFault; split <;> rfl
@[simp] theorem takeFault_schedule (f : CycleOutcome) (fp fa : Word) (s : State) : (takeFault f fp fa s).schedule = s.schedule := by
  unfold takeFault; split <;> rfl

end Sys2Proof.Machine
end

