-- ==== Sys2Proof/Laws/Ops.lean ====
section
/-! SUPPORT. For each shared operation, one lemma that says everything it can do; later proofs cite these and do not unfold
the operation. -/

namespace Sys2Proof.Machine

/-! ### Registers -/

/-- A read of a register after a write of one. -/
@[simp] theorem State.getV_setV (s : State) (x : Nibble) (b : Byte) (r : Nibble) :
    (s.setV x b).getV r = if r = x then b else s.getV r := by
  simp only [State.getV, State.setV, Vector.getElem_set]
  by_cases h : r = x
  · simp [h]
  · rw [if_neg h, if_neg (fun e => h (BitVec.eq_of_toNat_eq e.symm))]

@[simp] theorem State.getV_setFlag (s : State) (f : Bool) (r : Nibble) :
    (s.setFlag f).getV r = if r = 0xF#4 then flagByte f else s.getV r := State.getV_setV s 0xF#4 (flagByte f) r

/-- Result and flag: the flag register holds the flag, whatever the destination (R170). -/
theorem getV_setResultThenFlag (x : Nibble) (b : Byte) (f : Bool) (s : State) (r : Nibble) :
    (setResultThenFlag x b f s).getV r = if r = 0xF#4 then flagByte f else if r = x then b else s.getV r := by
  simp [setResultThenFlag]

/-- Result and flag touch general registers alone. -/
theorem setResultThenFlag_frame (x : Nibble) (b : Byte) (f : Bool) (s : State) :
    setResultThenFlag x b f s = { s with v := (setResultThenFlag x b f s).v } := rfl

/-- Two states with the same general registers read the same ones. -/
theorem State.getV_congr {s t : State} (h : t.v = s.v) (r : Nibble) : t.getV r = s.getV r := by
  simp [State.getV, h]

/-- Registers are the same when every read is. -/
theorem State.v_ext {s t : State} (h : ∀ r, t.getV r = s.getV r) : t.v = s.v := by
  apply Vector.ext
  intro k hk
  have := h (BitVec.ofNat 4 k)
  simpa [State.getV, Nat.mod_eq_of_lt (show k < 16 by omega)] using this

/-! ### Skips -/

/-- A conditional skip changes `pc` alone. -/
theorem State.skipIf_eq (s : State) (c : Bool) : s.skipIf c = { s with pc := if c then s.pc + 2 else s.pc } := by
  cases c <;> rfl

/-! ### Memory -/

/-- Two states with the same memory read the same bytes. -/
theorem State.readByte_congr {s t : State} (h : t.mem = s.mem) (a : Nat) : t.readByte a = s.readByte a := by
  simp [State.readByte, h]

/-- A read of a byte after a store of several. -/
theorem State.readByte_writeBytes {s : State} (hm : Memory.wf s.mem = true) {a : Nat} {bs : List Byte}
    (ha : a + bs.length ≤ 0x1000) (c : Nat) :
    (s.writeBytes a bs).readByte c =
      if a ≤ c ∧ c < a + bs.length then bs.getD (c - a) 0 else s.readByte c :=
  Memory.read_writeBytes hm ha c

/-- A fetched word, as a number: the byte at the lower address is the high byte (R63). -/
theorem State.toNat_readWord (s : State) (a : Nat) :
    (s.readWord a).toNat = (s.readByte a).toNat * 256 + (s.readByte (a + 1)).toNat := by
  simp only [State.readWord, bytesWord, BitVec.toNat_append]
  rw [Nat.shiftLeft_eq, Nat.mul_comm, ← Nat.two_pow_add_eq_or_of_lt (s.readByte (a + 1)).isLt]

/-! ### Faults and the range check -/

/-- `CheckRange` finds nothing exactly when the range is empty or ends inside memory (R206). -/
theorem checkRange_eq_none (a n : Nat) : checkRange a n = none ↔ n = 0 ∨ a + n ≤ 0x1000 := by
  unfold checkRange
  by_cases h : 0 < n ∧ 0xFFF < a + n - 1
  · simp [h]; omega
  · simp [h]; omega

/-- The range is valid: the instruction has its effect. -/
theorem withRange_ok {n : Nat} {s : State} (h : n = 0 ∨ s.i.toNat + n ≤ 0x1000) (k : State) :
    withRange n s k = .next k := by
  rw [withRange, (checkRange_eq_none _ _).mpr h]

/-- The range is not valid: the instruction raises `MemoryOutOfBounds` and does nothing else. -/
theorem withRange_fault {n : Nat} {s : State} (h : 0 < n) (h' : 0x1000 < s.i.toNat + n) (k : State) :
    withRange n s k = .next (raise .memoryOutOfBounds (BitVec.ofNat 16 (max s.i.toNat 0x1000)) s) := by
  rw [withRange, checkRange, if_pos ⟨h, by omega⟩]

/-- Everything `withRange` can do. -/
theorem withRange_cases (n : Nat) (s k : State) :
    ((n = 0 ∨ s.i.toNat + n ≤ 0x1000) ∧ withRange n s k = .next k) ∨
    (0 < n ∧ 0x1000 < s.i.toNat + n ∧
      withRange n s k = .next (raise .memoryOutOfBounds (BitVec.ofNat 16 (max s.i.toNat 0x1000)) s)) := by
  by_cases h : n = 0 ∨ s.i.toNat + n ≤ 0x1000
  · exact .inl ⟨h, withRange_ok h k⟩
  · exact .inr ⟨by omega, by omega, withRange_fault (by omega) (by omega) k⟩

/-- Fault entry touches the latch, `outcome` and `halted` alone (R288). -/
theorem takeFault_frame (f : CycleOutcome) (fp fa : Word) (s : State) :
    takeFault f fp fa s =
      { s with
          faultCode := if s.faultCode = .ok then f else s.faultCode
          faultPc := if s.faultCode = .ok then fp else s.faultPc
          faultAddr := if s.faultCode = .ok then fa else s.faultAddr
          outcome := f
          halted := s.halted || s.par.haltOnFault } := by
  unfold takeFault
  split <;> simp_all

/-! ### Runs of registers -/

theorem length_firstRegisters (x : Nibble) (s : State) : (firstRegisters x s).length = x.toNat + 1 := by
  have := x.isLt
  simp [firstRegisters]
  omega

/-- FX55 stores `V[j]` as its `j`-th byte. -/
theorem getD_firstRegisters (x : Nibble) (s : State) {j : Nat} (hj : j ≤ x.toNat) :
    (firstRegisters x s).getD j 0 = s.getV (BitVec.ofNat 4 j) := by
  have hx := x.isLt
  have h16 : j < 16 := by omega
  simp [firstRegisters, State.getV, Nat.mod_eq_of_lt h16, List.getD_eq_getElem?_getD,
    show j < x.toNat + 1 by omega, h16]

/-- What FX65 leaves in the registers. -/
theorem getV_loadRegisters (x : Nibble) (s : State) (r : Nibble) :
    (loadRegisters x s).getV r = if r.toNat ≤ x.toNat then s.readByte (s.i.toNat + r.toNat) else s.getV r := by
  simp [loadRegisters, State.getV]

theorem loadRegisters_frame (x : Nibble) (s : State) : loadRegisters x s = { s with v := (loadRegisters x s).v } := rfl

/-- The optional advance changes `I` alone. -/
theorem advanceI_eq (x : Nibble) (s : State) :
    advanceI x s = { s with i := if s.cfg.memInc then s.i + BitVec.ofNat 16 (x.toNat + 1) else s.i } := by
  unfold advanceI
  split <;> simp_all [State.setI]

/-! ### Display -/

/-- A pixel after an XOR with row masks. -/
theorem Frame.pixel_xorRows (fb : Frame) (mask : Nat → BitVec 64) (y : Fin 32) (x : Nat) :
    Frame.pixel (xorRows fb mask) y x = (Frame.pixel fb y x ^^ (mask y.val).getMsbD x) := by
  simp [Frame.pixel, xorRows]

/-- Which pixels a sprite byte toggles: bit 7 at column `x0`, nothing past column 63 (R222, R223). -/
theorem getMsbD_rowMask (b : Byte) (x0 x : Nat) :
    (rowMask b x0).getMsbD x = (decide (x0 ≤ x ∧ x ≤ x0 + 7 ∧ x ≤ 63) && b.getLsbD (7 - (x - x0))) := by
  rw [rowMask, BitVec.getMsbD_ushiftRight, BitVec.getMsbD_shiftLeft]
  by_cases h : x0 ≤ x ∧ x ≤ x0 + 7 ∧ x ≤ 63
  · simp [h.1, show x < 64 by omega, Nat.not_lt.mpr h.1, BitVec.getMsbD_eq_getLsbD, show x - x0 + 56 < 64 by omega, h.2,
      show 63 - (x - x0 + 56) = 7 - (x - x0) by omega, show 7 - (x - x0) < 64 by omega]
  · simp only [h, decide_false, Bool.false_and]
    simp [BitVec.getMsbD_eq_getLsbD]
    omega

/-- Collision: some pixel is on before and off after (R224). -/
theorem collision_iff (fb : Frame) (mask : Nat → BitVec 64) :
    collision fb mask = true ↔ ∃ y : Fin 32, ∃ x, Frame.pixel fb y x = true ∧ Frame.pixel (xorRows fb mask) y x = false := by
  simp only [collision, List.any_eq_true, List.mem_finRange, true_and, bne_iff_ne, ne_eq, Frame.pixel_xorRows]
  refine exists_congr fun y => ?_
  constructor
  · intro h
    by_contra hc
    refine h (BitVec.eq_of_getMsbD_eq fun k hk => ?_)
    have := not_exists.mp hc k
    simp only [Frame.pixel] at this
    simp only [BitVec.getMsbD_and, BitVec.getMsbD_not, BitVec.getMsbD_xor]
    revert this
    cases (fb[y]).getMsbD k <;> cases (mask y.val).getMsbD k <;> simp [hk]
  · rintro ⟨x, h1, h2⟩ h
    simp only [Frame.pixel] at h1 h2
    have hx : x < 64 := by
      by_contra hx
      simp [BitVec.getMsbD_of_ge _ _ (Nat.not_lt.mp hx)] at h1
    have hb := congrArg (fun w => w.getMsbD x) h
    simp only [BitVec.getMsbD_and, BitVec.getMsbD_not, BitVec.getMsbD_xor, h1, hx] at hb h2
    revert hb h2
    cases (mask y.val).getMsbD x <;> simp

/-- Which pixels a sprite toggles: those of its unclipped rows that its bytes have a 1 for (R221 to R223). -/
theorem getMsbD_spriteMask (s : State) (x0 y0 rows y x : Nat) :
    (spriteMask s x0 y0 rows y).getMsbD x = true ↔
      (y0 ≤ y ∧ y < y0 + rows) ∧ (x0 ≤ x ∧ x ≤ x0 + 7 ∧ x ≤ 63) ∧
        (s.readByte (s.i.toNat + (y - y0))).getLsbD (7 - (x - x0)) = true := by
  by_cases h : y0 ≤ y ∧ y < y0 + rows
  · rw [spriteMask, if_pos h, getMsbD_rowMask]
    simp [h]
  · simp [spriteMask, h]

/-- After the XOR-blit VF holds the collision flag and every other register is as before. -/
theorem getV_drawSprite (s : State) (mask : Nat → BitVec 64) (r : Nibble) :
    (drawSprite s mask).getV r = if r = 0xF#4 then flagByte (collision s.fb mask) else s.getV r :=
  (State.getV_congr (t := drawSprite s mask) (s := s.setFlag (collision s.fb mask)) rfl r).trans
    (State.getV_setFlag s (collision s.fb mask) r)

/-- The XOR-blit changes registers and display alone, and hands the frame over. -/
theorem drawSprite_frame (s : State) (mask : Nat → BitVec 64) :
    drawSprite s mask =
      { s with v := (drawSprite s mask).v, fb := xorRows s.fb mask, redraw := true, fbOut := some (xorRows s.fb mask) } :=
  rfl

/-- The same masks twice leave the display as it was. -/
theorem xorRows_xorRows (fb : Frame) (mask : Nat → BitVec 64) : xorRows (xorRows fb mask) mask = fb := by
  apply Vector.ext
  intro k hk
  simp [xorRows]

/-! ### What the host presents -/

/-- The contract of R34 as the rule words it. -/
theorem keysAgree_iff (kd : BitVec 16) (lk : Option Nibble) :
    keysAgree kd lk = true ↔ (lk = none ↔ kd = 0) ∧ ∀ k, lk = some k → kd.getLsbD k.toNat = true := by
  cases lk with
  | none => simp [keysAgree]
  | some k =>
    simp only [keysAgree, reduceCtorEq, false_iff, Option.some.injEq, forall_eq']
    refine ⟨fun h => ⟨fun hz => ?_, h⟩, And.right⟩
    simp [hz] at h

/-- A record that leaves every field out latches the defaults of R6 (R50). -/
theorem latchCfg_none : latchCfg { ips := none, shiftVy := none, jumpVx := none, memInc := none } = defaultCfg := rfl

/-- A record that supplies every field latches it as it stands (R50). -/
theorem latchCfg_some (c : Cfg) :
    latchCfg { ips := some c.ips, shiftVy := some c.shiftVy, jumpVx := some c.jumpVx, memInc := some c.memInc } = c := rfl

/-- Only a record that supplies an `IPS` of 0 latches an illegal rate (R50). -/
theorem latchCfg_ips_eq_zero (r : CfgRecord) : (latchCfg r).ips = 0 ↔ r.ips = some 0 := by
  cases h : r.ips <;> simp [latchCfg, h, defaultCfg]

end Sys2Proof.Machine
end

