-- ==== Sys2Proof/Laws/Exec.lean ====
section
/-! SUPPORT. Everything an execution can do, said once: one inversion for exec, instruction by instruction, and the fields no
instruction touches. Later proofs split on `ExecLeads` and do not unfold a meaning. -/

namespace Sys2Proof.Machine

/-- `raise` as the fields it writes (R288). -/
theorem raise_frame (f : CycleOutcome) (fa : Word) (s : State) :
    raise f fa s =
      { s with
          faultCode := if s.faultCode = .ok then f else s.faultCode
          faultPc := if s.faultCode = .ok then s.pc - 2 else s.faultPc
          faultAddr := if s.faultCode = .ok then fa else s.faultAddr
          outcome := f
          halted := s.halted || s.par.haltOnFault } := takeFault_frame f (s.pc - 2) fa s

/-- A transfer of `n` bytes from `I`: its effect `k` when they are all valid, else the fault alone (R206). -/
def RangeLeads (n : Nat) (s k t : State) : Prop :=
  ((n = 0 ∨ s.i.toNat + n ≤ 0x1000) ∧ t = k) ∨
  (0 < n ∧ 0x1000 < s.i.toNat + n ∧ t = raise .memoryOutOfBounds (BitVec.ofNat 16 (max s.i.toNat 0x1000)) s)

theorem withRange_leads {n : Nat} {s k t : State} (h : withRange n s k = .next t) : RangeLeads n s k t := by
  rcases withRange_cases n s k with ⟨h1, h2⟩ | ⟨h1, h2, h3⟩
  · exact .inl ⟨h1, Host.Outcome.next.inj (h.symm.trans h2)⟩
  · exact .inr ⟨h1, h2, Host.Outcome.next.inj (h.symm.trans h3)⟩

/-- What an execution that answers a next state has done. -/
def ExecLeads (i : Instr) (s t : State) : Prop :=
  match i with
  | .cls => t = State.present { s with fb := Vector.replicate 32 0 }
  | .ret => (∃ h, t = s.drop.setPc (s.top h)) ∨ (s.sp.val = 0 ∧ t = raise .stackUnderflow 0 s)
  | .jp nnn => t = s.setPc (addrOperand nnn)
  | .call nnn =>
    (∃ h, t = (s.push s.pc h).setPc (addrOperand nnn)) ∨ (s.sp.val = 16 ∧ t = raise .stackOverflow 0 s)
  | .seImm x nn => t = s.skipIf (s.getV x == nn)
  | .sneImm x nn => t = s.skipIf (s.getV x != nn)
  | .seReg x y _ => t = s.skipIf (s.getV x == s.getV y)
  | .ldImm x nn => t = s.setV x nn
  | .addImm x nn => t = s.setV x (s.getV x + nn)
  | .ldReg x y => t = s.setV x (s.getV y)
  | .orReg x y => t = s.setV x (s.getV x ||| s.getV y)
  | .andReg x y => t = s.setV x (s.getV x &&& s.getV y)
  | .xorReg x y => t = s.setV x (s.getV x ^^^ s.getV y)
  | .addReg x y => t = setResultThenFlag x (s.getV x + s.getV y) (carryOut (s.getV x) (s.getV y)) s
  | .subReg x y => t = setResultThenFlag x (s.getV x - s.getV y) (noBorrow (s.getV x) (s.getV y)) s
  | .shr x y => t = setResultThenFlag x (shiftSource x y s >>> 1) (shiftedOutRight (shiftSource x y s)) s
  | .subnReg x y => t = setResultThenFlag x (s.getV y - s.getV x) (noBorrow (s.getV y) (s.getV x)) s
  | .shl x y => t = setResultThenFlag x (shiftSource x y s <<< 1) (shiftedOutLeft (shiftSource x y s)) s
  | .sneReg x y _ => t = s.skipIf (s.getV x != s.getV y)
  | .ldI nnn => t = s.setI (addrOperand nnn)
  | .jpV0 nnn => t = s.setPc (addrOperand nnn + byteOperand (s.getV (jumpRegister nnn s)))
  | .rnd x nn => t = { s.setV x (Config.rndByte s.rndDraws &&& nn) with rndDraws := s.rndDraws + 1 }
  | .drw x y n =>
    RangeLeads (spriteRows n ((s.getV y).toNat % 32)) s
      (drawSprite s (spriteMask s ((s.getV x).toNat % 64) ((s.getV y).toNat % 32)
        (spriteRows n ((s.getV y).toNat % 32)))) t
  | .skp x => t = s.skipIf (keyIsDown (s.getV x) s)
  | .sknp x => t = s.skipIf (!keyIsDown (s.getV x) s)
  | .ldVxDt x => t = s.setV x s.dt
  | .ldVxK x =>
    (s.kwState = .idle ∧ t = State.hold { s with kwState := .awaitPress }) ∨
    (∃ k, s.kwState = .awaitPress ∧ s.lastKey = some k ∧
      t = State.hold { s with kwKey := k, kwState := .awaitRelease }) ∨
    (s.kwState = .awaitPress ∧ s.lastKey = none ∧ t = s.hold) ∨
    (s.kwState = .awaitRelease ∧ s.keyDown = 0 ∧ t = { s.setV x (s.kwKey.setWidth 8) with kwState := .idle }) ∨
    (s.kwState = .awaitRelease ∧ s.keyDown ≠ 0 ∧ t = s.hold)
  | .ldDtVx x => t = { s with dt := s.getV x }
  | .ldStVx x => t = { s with st := s.getV x }
  | .addI x => t = s.setI (s.i + byteOperand (s.getV x))
  | .ldF x => t = s.setI (BitVec.ofNat 16 (Config.fontBase + 5 * (s.getV x).toNat))
  | .ldB x => RangeLeads 3 s (s.writeBytes s.i.toNat (bcdDigits (s.getV x))) t
  | .ldMemVx x => RangeLeads (x.toNat + 1) s (advanceI x (s.writeBytes s.i.toNat (firstRegisters x s))) t
  | .ldVxMem x => RangeLeads (x.toNat + 1) s (advanceI x (loadRegisters x s)) t
  | .unknown _ => t = s

theorem exec_leads {i : Instr} {s t : State} (h : exec i s = .next t) : ExecLeads i s t := by
  cases i
  case ret =>
    simp only [exec, execRet] at h
    split at h
    · next hp => exact .inl ⟨hp, (Host.Outcome.next.inj h).symm⟩
    · next hp => exact .inr ⟨Nat.eq_zero_of_not_pos hp, (Host.Outcome.next.inj h).symm⟩
  case call nnn =>
    simp only [exec, execCall] at h
    split at h
    · next hp => exact .inl ⟨hp, (Host.Outcome.next.inj h).symm⟩
    · next hp => exact .inr ⟨by have := s.sp.isLt; omega, (Host.Outcome.next.inj h).symm⟩
  case ldVxK x =>
    simp only [exec, execLdVxK] at h
    split at h
    · next hk => exact .inl ⟨hk, (Host.Outcome.next.inj h).symm⟩
    · next hk =>
      split at h
      · next k hl => exact .inr (.inl ⟨k, hk, hl, (Host.Outcome.next.inj h).symm⟩)
      · next hl => exact .inr (.inr (.inl ⟨hk, hl, (Host.Outcome.next.inj h).symm⟩))
    · next hk =>
      split at h
      · next hd => exact .inr (.inr (.inr (.inl ⟨hk, hd, (Host.Outcome.next.inj h).symm⟩)))
      · next hd => exact .inr (.inr (.inr (.inr ⟨hk, hd, (Host.Outcome.next.inj h).symm⟩)))
  case drw => exact withRange_leads h
  case ldB => exact withRange_leads h
  case ldMemVx => exact withRange_leads h
  case ldVxMem => exact withRange_leads h
  all_goals exact (Host.Outcome.next.inj h).symm

end Sys2Proof.Machine
end

