-- ==== Sys2Proof/Laws/PerInstr.lean ====
section
/-! SUPPORT. One lemma per constructor of Instr: the encoder writes the fixed bits of the instruction's row of the opcode map
(30_encoding.md R106), whatever the operands; the word of the default row is an unknown word (R101). -/

namespace Sys2Proof

theorem and_F000 (w : Word) : w &&& 0xF000#16 = fieldOP w ++ 0#12 := by
  ext k hk
  erw [BitVec.getElem_append]
  interval_cases k <;> simp [fieldOP]

theorem and_F0FF (w : Word) : w &&& 0xF0FF#16 = fieldOP w ++ 0#4 ++ fieldNN w := by
  ext k hk
  erw [BitVec.getElem_append]
  interval_cases k <;> simp [fieldOP, fieldNN] <;> erw [BitVec.getElem_append] <;> simp

theorem and_F00F (w : Word) : w &&& 0xF00F#16 = fieldOP w ++ 0#8 ++ fieldN w := by
  ext k hk
  erw [BitVec.getElem_append]
  interval_cases k <;> simp [fieldOP, fieldN] <;> erw [BitVec.getElem_append] <;> simp

end Sys2Proof

namespace Sys2Proof.Laws.EncodesRow

/-- The word of `i` matches the row of `i`. -/
def Statement (i : Instr) : Prop :=
  i.wellFormed = true →
    match opcodeMap[i.row]? with
    | some r => encode i &&& r.2 = r.1
    | none => isUnknownWord (encode i) = true

theorem cls : Statement .cls := fun _ => rfl

theorem ret : Statement .ret := fun _ => rfl

theorem jp (nnn : Addr) : Statement (.jp nnn) :=
  fun _ => (and_F000 _).trans (by rw [encode, fieldOP_nnn]; rfl)

theorem call (nnn : Addr) : Statement (.call nnn) :=
  fun _ => (and_F000 _).trans (by rw [encode, fieldOP_nnn]; rfl)

theorem seImm (x : Nibble) (nn : Byte) : Statement (.seImm x nn) :=
  fun _ => (and_F000 _).trans (by rw [encode, fieldOP_xnn]; rfl)

theorem sneImm (x : Nibble) (nn : Byte) : Statement (.sneImm x nn) :=
  fun _ => (and_F000 _).trans (by rw [encode, fieldOP_xnn]; rfl)

theorem seReg (x : Nibble) (y : Nibble) (n : Nibble) : Statement (.seReg x y n) :=
  fun _ => (and_F000 _).trans (by rw [encode, fieldOP_xyn]; rfl)

theorem ldImm (x : Nibble) (nn : Byte) : Statement (.ldImm x nn) :=
  fun _ => (and_F000 _).trans (by rw [encode, fieldOP_xnn]; rfl)

theorem addImm (x : Nibble) (nn : Byte) : Statement (.addImm x nn) :=
  fun _ => (and_F000 _).trans (by rw [encode, fieldOP_xnn]; rfl)

theorem ldReg (x : Nibble) (y : Nibble) : Statement (.ldReg x y) :=
  fun _ => (and_F00F _).trans (by rw [encode, fieldOP_xyn, fieldN_xyn]; rfl)

theorem orReg (x : Nibble) (y : Nibble) : Statement (.orReg x y) :=
  fun _ => (and_F00F _).trans (by rw [encode, fieldOP_xyn, fieldN_xyn]; rfl)

theorem andReg (x : Nibble) (y : Nibble) : Statement (.andReg x y) :=
  fun _ => (and_F00F _).trans (by rw [encode, fieldOP_xyn, fieldN_xyn]; rfl)

theorem xorReg (x : Nibble) (y : Nibble) : Statement (.xorReg x y) :=
  fun _ => (and_F00F _).trans (by rw [encode, fieldOP_xyn, fieldN_xyn]; rfl)

theorem addReg (x : Nibble) (y : Nibble) : Statement (.addReg x y) :=
  fun _ => (and_F00F _).trans (by rw [encode, fieldOP_xyn, fieldN_xyn]; rfl)

theorem subReg (x : Nibble) (y : Nibble) : Statement (.subReg x y) :=
  fun _ => (and_F00F _).trans (by rw [encode, fieldOP_xyn, fieldN_xyn]; rfl)

theorem shr (x : Nibble) (y : Nibble) : Statement (.shr x y) :=
  fun _ => (and_F00F _).trans (by rw [encode, fieldOP_xyn, fieldN_xyn]; rfl)

theorem subnReg (x : Nibble) (y : Nibble) : Statement (.subnReg x y) :=
  fun _ => (and_F00F _).trans (by rw [encode, fieldOP_xyn, fieldN_xyn]; rfl)

theorem shl (x : Nibble) (y : Nibble) : Statement (.shl x y) :=
  fun _ => (and_F00F _).trans (by rw [encode, fieldOP_xyn, fieldN_xyn]; rfl)

theorem sneReg (x : Nibble) (y : Nibble) (n : Nibble) : Statement (.sneReg x y n) :=
  fun _ => (and_F000 _).trans (by rw [encode, fieldOP_xyn]; rfl)

theorem ldI (nnn : Addr) : Statement (.ldI nnn) :=
  fun _ => (and_F000 _).trans (by rw [encode, fieldOP_nnn]; rfl)

theorem jpV0 (nnn : Addr) : Statement (.jpV0 nnn) :=
  fun _ => (and_F000 _).trans (by rw [encode, fieldOP_nnn]; rfl)

theorem rnd (x : Nibble) (nn : Byte) : Statement (.rnd x nn) :=
  fun _ => (and_F000 _).trans (by rw [encode, fieldOP_xnn]; rfl)

theorem drw (x : Nibble) (y : Nibble) (n : Nibble) : Statement (.drw x y n) :=
  fun _ => (and_F000 _).trans (by rw [encode, fieldOP_xyn]; rfl)

theorem skp (x : Nibble) : Statement (.skp x) :=
  fun _ => (and_F0FF _).trans (by rw [encode, fieldOP_xnn, fieldNN_xnn]; rfl)

theorem sknp (x : Nibble) : Statement (.sknp x) :=
  fun _ => (and_F0FF _).trans (by rw [encode, fieldOP_xnn, fieldNN_xnn]; rfl)

theorem ldVxDt (x : Nibble) : Statement (.ldVxDt x) :=
  fun _ => (and_F0FF _).trans (by rw [encode, fieldOP_xnn, fieldNN_xnn]; rfl)

theorem ldVxK (x : Nibble) : Statement (.ldVxK x) :=
  fun _ => (and_F0FF _).trans (by rw [encode, fieldOP_xnn, fieldNN_xnn]; rfl)

theorem ldDtVx (x : Nibble) : Statement (.ldDtVx x) :=
  fun _ => (and_F0FF _).trans (by rw [encode, fieldOP_xnn, fieldNN_xnn]; rfl)

theorem ldStVx (x : Nibble) : Statement (.ldStVx x) :=
  fun _ => (and_F0FF _).trans (by rw [encode, fieldOP_xnn, fieldNN_xnn]; rfl)

theorem addI (x : Nibble) : Statement (.addI x) :=
  fun _ => (and_F0FF _).trans (by rw [encode, fieldOP_xnn, fieldNN_xnn]; rfl)

theorem ldF (x : Nibble) : Statement (.ldF x) :=
  fun _ => (and_F0FF _).trans (by rw [encode, fieldOP_xnn, fieldNN_xnn]; rfl)

theorem ldB (x : Nibble) : Statement (.ldB x) :=
  fun _ => (and_F0FF _).trans (by rw [encode, fieldOP_xnn, fieldNN_xnn]; rfl)

theorem ldMemVx (x : Nibble) : Statement (.ldMemVx x) :=
  fun _ => (and_F0FF _).trans (by rw [encode, fieldOP_xnn, fieldNN_xnn]; rfl)

theorem ldVxMem (x : Nibble) : Statement (.ldVxMem x) :=
  fun _ => (and_F0FF _).trans (by rw [encode, fieldOP_xnn, fieldNN_xnn]; rfl)

theorem unknown (w : Word) : Statement (.unknown w) := fun h => h

end Sys2Proof.Laws.EncodesRow
end

