-- ==== Sys2Proof/Laws/Step.lean ====
section
/-! SUPPORT. Everything a step can do: one inversion for a scheduler pass and one for a step, from which invariants follow
without unfolding either. -/

namespace Sys2Proof.Machine

/-- Waiting changes the time alone. -/
theorem State.waitDue_eq (s : State) : s.waitDue = { s with now := s.waitDue.now } := by
  unfold State.waitDue
  split <;> rfl

/-- After waiting a cycle is due (R129): the time reached is `next_due` itself when it was not past it before. -/
theorem State.isDue_waitDue {s : State} (hi : 1 ≤ s.cfg.ips) (hq : s.quit = false) : s.waitDue.isDue = true := by
  by_cases hd : s.isDue = true
  · have e : s.waitDue = s := by simp [State.waitDue, hd]
    rw [e, hd]
  · have e : s.waitDue = { s with now := { num := s.nextDue, denPred := s.cfg.ips - 1 } } := by
      simp [State.waitDue, hd, hq]
    rw [e]
    simp [State.isDue, Nat.sub_add_cancel hi]

/-- What a scheduler pass that answers a next state has done. -/
def PassLeads (u t : State) : Prop :=
  t = u ∨
  (u.halted = true ∧ t = u.advanceDue) ∨
  (u.halted = false ∧ 0xFFE < u.pc.toNat ∧ t = takeFault .endOfMemory u.pc 0 (beginCycle u.advanceDue)) ∨
  (u.halted = false ∧ u.pc.toNat ≤ 0xFFE ∧
    exec (decode (u.readWord u.pc.toNat)) ((beginCycle u.advanceDue).setPc (u.pc + 2)) = .next t)

theorem corePass_leads {u t : State} (h : corePass u = .next t) : PassLeads u t := by
  unfold corePass at h
  split at h
  · exact .inl (by simpa using h.symm)
  split at h
  · cases h
  split at h
  · split at h
    · next hh => exact .inr (.inl ⟨hh, by simpa using h.symm⟩)
    · next hh =>
      unfold cycle at h
      split at h
      · next hp => exact .inr (.inr (.inl ⟨by simpa using hh, hp, by simpa using h.symm⟩))
      · next hp => exact .inr (.inr (.inr ⟨by simpa using hh, Nat.not_lt.mp hp, h⟩))
  · exact .inl (by simpa using h.symm)

/-- What a step that answers a next state has done: a pass of the core, or the step of another agent. -/
theorem step_leads {s t : State} (h : step s = .next t) :
    PassLeads s.waitDue t ∨
    ∃ rest, PassLeads { s with schedule := rest } t ∨
      t = { s with schedule := rest } ∨
      t = State.tick60 { s with schedule := rest } ∨
      (∃ kd lk, keysAgree kd lk = true ∧ t = { s with schedule := rest, keyDown := kd, lastKey := lk }) ∨
      (∃ m d, t = { s with schedule := rest, now := s.now.add m d }) ∨
      t = { s with schedule := rest, quit := true } ∨
      (∃ rom record, s.schedule = .reset rom record :: rest ∧ 1 ≤ (latchCfg record).ips ∧
        t = resetMachine rom (latchCfg record) { s with schedule := rest }) := by
  unfold step at h
  split at h
  · exact .inl (corePass_leads h)
  · next a rest hs =>
    refine .inr ⟨rest, ?_⟩
    cases a with
    | corePass => exact .inl (corePass_leads h)
    | tick =>
      simp only [agentStep, unlessQuit] at h
      split at h
      · exact .inr (.inl (by simpa using h.symm))
      · exact .inr (.inr (.inl (by simpa using h.symm)))
    | keys kd lk =>
      simp only [agentStep, unlessQuit] at h
      split at h
      · next hk =>
        split at h
        · exact .inr (.inl (by simpa using h.symm))
        · exact .inr (.inr (.inr (.inl ⟨kd, lk, hk, by simpa using h.symm⟩)))
      · cases h
    | elapse m d =>
      simp only [agentStep, unlessQuit] at h
      split at h
      · exact .inr (.inl (by simpa using h.symm))
      · exact .inr (.inr (.inr (.inr (.inl ⟨m, d, by simpa using h.symm⟩))))
    | quit =>
      exact .inr (.inr (.inr (.inr (.inr (.inl (by simpa [agentStep] using h.symm))))))
    | reset rom record =>
      simp only [agentStep] at h
      split at h
      · cases h
      · next hi => exact .inr (.inr (.inr (.inr (.inr (.inr ⟨rom, record, hs, by omega, by simpa using h.symm⟩)))))

end Sys2Proof.Machine
end

