-- ==== Sys2Proof/Tests/Slice0.lean ====
section
/-! SUPPORT. The model's own tests, by decide: ill-formed terms refused; words written out bit by bit from 30_encoding.md R106
and their decodings; single steps whose results are vectors of 95_test_vectors.md; and for every statement with hypotheses, states
and operands that meet them, at the boundaries of its clauses. -/

namespace Sys2Proof.Tests

open Sys2Proof Sys2Proof.Machine

/-! ### WellFormed: the one check, in each of its four spaces (R101) -/

theorem test_unknown_class0 : (Instr.unknown 0x00E0#16).wellFormed = false ∧ (Instr.unknown 0x00EE#16).wellFormed = false ∧
    (Instr.unknown 0x00E1#16).wellFormed = true := by decide
theorem test_unknown_class8 : (Instr.unknown 0x8AB4#16).wellFormed = false ∧ (Instr.unknown 0x8AB8#16).wellFormed = true := by
  decide
theorem test_unknown_classE : (Instr.unknown 0xE19E#16).wellFormed = false ∧ (Instr.unknown 0xE19F#16).wellFormed = true := by
  decide
theorem test_unknown_classF : (Instr.unknown 0xF065#16).wellFormed = false ∧ (Instr.unknown 0xF075#16).wellFormed = true := by
  decide
theorem test_unknown_other : (Instr.unknown 0x1234#16).wellFormed = false := by decide

/-! ### Decoding: the fixed bits of R106 and operand bits, written out -/

theorem test_decode_class0 :
    decode 0b0000000011100000#16 = .cls ∧ decode 0b0000000011101110#16 = .ret ∧
    decode 0b0000000011100001#16 = .unknown 0x00E1#16 := by decide
theorem test_decode_jumps :
    decode 0b0001111111111111#16 = .jp 0xFFF#12 ∧ decode 0b0010001100000001#16 = .call 0x301#12 ∧
    decode 0b1011001011110000#16 = .jpV0 0x2F0#12 := by decide
theorem test_decode_skips :
    decode 0b0011001100101010#16 = .seImm 0x3#4 0x2A#8 ∧ decode 0b0100001100101011#16 = .sneImm 0x3#4 0x2B#8 ∧
    decode 0b0101000100101111#16 = .seReg 0x1#4 0x2#4 0xF#4 ∧
    decode 0b1001101010110111#16 = .sneReg 0xA#4 0xB#4 0x7#4 := by decide
theorem test_decode_immediates :
    decode 0b0110111110101011#16 = .ldImm 0xF#4 0xAB#8 ∧ decode 0b0111000000000010#16 = .addImm 0x0#4 0x02#8 ∧
    decode 0b1100000100001111#16 = .rnd 0x1#4 0x0F#8 := by decide
theorem test_decode_alu_low :
    decode 0b1000000100100000#16 = .ldReg 0x1#4 0x2#4 ∧ decode 0b1000000100100001#16 = .orReg 0x1#4 0x2#4 ∧
    decode 0b1000000100100010#16 = .andReg 0x1#4 0x2#4 ∧ decode 0b1000000100100011#16 = .xorReg 0x1#4 0x2#4 ∧
    decode 0b1000101010110100#16 = .addReg 0xA#4 0xB#4 := by decide
theorem test_decode_alu_high :
    decode 0b1000000000010101#16 = .subReg 0x0#4 0x1#4 ∧ decode 0b1000000100100110#16 = .shr 0x1#4 0x2#4 ∧
    decode 0b1000000000010111#16 = .subnReg 0x0#4 0x1#4 ∧ decode 0b1000101010111110#16 = .shl 0xA#4 0xB#4 ∧
    decode 0b1000101010111000#16 = .unknown 0x8AB8#16 := by decide
theorem test_decode_index :
    decode 0b1010000001010000#16 = .ldI 0x050#12 ∧ decode 0b1111001000011110#16 = .addI 0x2#4 ∧
    decode 0b1111000000101001#16 = .ldF 0x0#4 ∧ decode 0b1111000100110011#16 = .ldB 0x1#4 ∧
    decode 0b1111001001010101#16 = .ldMemVx 0x2#4 ∧ decode 0b1111111101100101#16 = .ldVxMem 0xF#4 := by decide
theorem test_decode_display : decode 0b1101000000010101#16 = .drw 0x0#4 0x1#4 0x5#4 := by decide
theorem test_decode_keys :
    decode 0b1110000110011110#16 = .skp 0x1#4 ∧ decode 0b1110001010100001#16 = .sknp 0x2#4 ∧
    decode 0b1111001100001010#16 = .ldVxK 0x3#4 ∧ decode 0b1110000110011111#16 = .unknown 0xE19F#16 := by decide
theorem test_decode_timers :
    decode 0b1111001100000111#16 = .ldVxDt 0x3#4 ∧ decode 0b1111000000010101#16 = .ldDtVx 0x0#4 ∧
    decode 0b1111000100011000#16 = .ldStVx 0x1#4 ∧ decode 0b1111000111111111#16 = .unknown 0xF1FF#16 := by decide

/-- The byte at the lower address is the high byte (R63, R65); one byte alone is refused by name. -/
theorem test_decode_bytes :
    decodeBytes [0x12#8, 0x34#8, 0xFF#8] = .ok (.jp 0x234#12, [0xFF#8]) ∧ decodeBytes [0x12#8] = .error .truncated :=
  ⟨rfl, rfl⟩
theorem test_decodeTableWord :
    decodeTableWord 16 0xD015 = some (.drw 0x0#4 0x1#4 0x5#4) ∧ decodeTableWord 24 0x0100E0 = none := by decide

/-! ### One step on a small state -/

/-- What `f` reads after one step of `s` with word `w` placed at its next fetch. -/
def after {α : Type} (w : Nat) (s : State) (f : State → α) : Option α :=
  match step (s.withFetchWord 16 w) with
  | .next t => some (f t)
  | .fault _ => none
  | .refused _ => none

/-- The reset state with `V[0]` = a and `V[1]` = b. -/
def regs01 (a b : Byte) : State := (State.reset.setV 0 a).setV 1 b

/-- The reset state with `V[1]` = a and `V[2]` = b. -/
def regs12 (a b : Byte) : State := (State.reset.setV 1 a).setV 2 b

/-- The reset state with `I` = w. -/
def index (w : Word) : State := State.reset.setI w

/-- The reset state with the shift toggle off. -/
def shiftVx (s : State) : State := { s with cfg := { s.cfg with shiftVy := false } }

/-- 16 entries in use. -/
def fullStack : State := { State.reset with sp := 16 }

/-- One entry in use: 0x204. -/
def oneEntry : State := State.reset.push 0x204 (by decide)

/-- V41-1, V41-3. -/
theorem test_jp : after 0x1ABC State.reset (·.pc) = some 0xABC := by decide
/-- V41-4. -/
theorem test_call : after 0x2300 State.reset (fun t => (t.stack[0], t.sp.val, t.pc)) = some (0x202, 1, 0x300) := by decide
/-- V41-6. -/
theorem test_call_overflow :
    after 0x2300 fullStack (fun t => (t.sp.val, t.pc, t.faultCode.code, t.faultPc, t.halted)) =
      some (16, 0x202, 1, 0x200, true) := by decide
/-- V41-7. -/
theorem test_ret : after 0x00EE oneEntry (fun t => (t.pc, t.sp.val)) = some (0x204, 0) := by decide
/-- V41-8. -/
theorem test_ret_underflow :
    after 0x00EE State.reset (fun t => (t.sp.val, t.pc, t.faultCode.code, t.faultPc, t.halted)) =
      some (0, 0x202, 2, 0x200, true) := by decide
/-- V41-11. -/
theorem test_jpV0 : after 0xBFFF (regs01 0xFF 0) (·.pc) = some 0x10FE := by decide
/-- V41-10. -/
theorem test_jpV0_toggle :
    after 0xB300 { (State.reset.setV 0 0x10).setV 3 0x05 with cfg := { defaultCfg with jumpVx := true } } (·.pc) =
      some 0x305 := by decide
/-- V42-1, V42-2. -/
theorem test_seImm : after 0x332A (State.reset.setV 3 0x2A) (·.pc) = some 0x204 ∧
    after 0x332B (State.reset.setV 3 0x2A) (·.pc) = some 0x202 := by decide
/-- V42-3, V42-4. -/
theorem test_sneImm : after 0x432A (State.reset.setV 3 0x2A) (·.pc) = some 0x202 ∧
    after 0x432B (State.reset.setV 3 0x2A) (·.pc) = some 0x204 := by decide
/-- V42-5, V42-6. -/
theorem test_seReg : after 0x5120 (regs12 7 7) (·.pc) = some 0x204 ∧ after 0x5120 (regs12 7 8) (·.pc) = some 0x202 := by
  decide
/-- V42-8, V42-9. -/
theorem test_sneReg : after 0x9120 (regs12 7 8) (·.pc) = some 0x204 ∧ after 0x9330 State.reset (·.pc) = some 0x202 := by
  decide
/-- V43-2. -/
theorem test_ldImm : after 0x6FAB State.reset (·.getV 0xF) = some 0xAB := by decide
/-- V43-3. -/
theorem test_addImm : after 0x7002 (regs01 0xFF 0) (fun t => (t.getV 0, t.getV 0xF)) = some (0x01, 0) := by decide
/-- V43-5. -/
theorem test_ldReg : after 0x8120 (regs12 0 0x7E) (·.getV 1) = some 0x7E := by decide
/-- V43-6. -/
theorem test_orReg :
    after 0x8121 ((regs12 0xF0 0x0F).setV 0xF 0x55) (fun t => (t.getV 1, t.getV 0xF)) = some (0xFF, 0x55) := by decide
/-- V43-7. -/
theorem test_andReg : after 0x8122 (regs12 0xF0 0x3C) (·.getV 1) = some 0x30 := by decide
/-- V43-8. -/
theorem test_xorReg : after 0x8123 (regs12 0xF0 0x3C) (·.getV 1) = some 0xCC := by decide
/-- V43-12. -/
theorem test_addReg : after 0x8014 (regs01 200 100) (fun t => (t.getV 0, t.getV 0xF)) = some (44, 1) := by decide
/-- V43-14: the destination is VF. -/
theorem test_addReg_flag : after 0x8F14 ((regs01 0 1).setV 0xF 0xFF) (·.getV 0xF) = some 1 := by decide
/-- V43-18. -/
theorem test_subReg : after 0x8015 (regs01 3 5) (fun t => (t.getV 0, t.getV 0xF)) = some (0xFE, 0) := by decide
/-- V43-19: equal operands do not borrow. -/
theorem test_subReg_equal : after 0x8015 (regs01 7 7) (fun t => (t.getV 0, t.getV 0xF)) = some (0, 1) := by decide
/-- V43-21. -/
theorem test_subnReg : after 0x8017 (regs01 3 5) (fun t => (t.getV 0, t.getV 0xF)) = some (2, 1) := by decide
/-- V43-23. -/
theorem test_shr :
    after 0x8126 (regs12 0xAA 0x03) (fun t => (t.getV 1, t.getV 2, t.getV 0xF)) = some (0x01, 0x03, 1) := by decide
/-- V43-24. -/
theorem test_shr_toggle : after 0x8126 (shiftVx (regs12 0xAA 0x03)) (fun t => (t.getV 1, t.getV 0xF)) = some (0x55, 0) := by
  decide
/-- V43-28. -/
theorem test_shl : after 0x812E (regs12 0x81 0xFF) (fun t => (t.getV 1, t.getV 0xF)) = some (0xFE, 1) := by decide
/-- V43-27. -/
theorem test_shl_toggle : after 0x812E (shiftVx (regs12 0x81 0xFF)) (fun t => (t.getV 1, t.getV 0xF)) = some (0x02, 1) := by
  decide
/-- V43-30: with the draw 0xB7 the result is 0x07; here for every draw, through the mask. -/
theorem test_rnd : (0xB7#8 &&& 0x0F#8 = 0x07#8) ∧
    after 0xC10F State.reset (·.getV 1) = some (Config.rndByte 0 &&& 0x0F#8) ∧
    after 0xC10F State.reset (·.rndDraws) = some 1 := ⟨rfl, rfl, rfl⟩
/-- V44-2. -/
theorem test_ldI : after 0xAFFF (index 0xFFFF) (·.i) = some 0x0FFF := by decide
/-- V44-5. -/
theorem test_addI : after 0xF01E ((index 0xFFFF).setV 0 1) (fun t => (t.i, t.getV 0xF)) = some (0x0000, 0) := by decide
/-- V44-10. -/
theorem test_ldF : after 0xF029 (regs01 0xFF 0) (·.i) = some 0x54B := by decide
/-- V44-15. -/
theorem test_ldB : after 0xF033 ((index 0x300).setV 0 123)
    (fun t => (t.readByte 0x300, t.readByte 0x301, t.readByte 0x302, t.i)) = some (1, 2, 3, 0x300) := by decide
/-- V44-18. -/
theorem test_ldB_fault : after 0xF033 ((index 0xFFE).setV 0 123)
    (fun t => (t.readByte 0xFFE, t.faultCode.code, t.faultAddr, t.faultPc)) = some (0, 4, 0x1000, 0x200) := by decide
/-- V44-21. -/
theorem test_ldMemVx : after 0xF055 ((index 0xFFF).setV 0 0xAB) (fun t => (t.readByte 0xFFF, t.i)) = some (0xAB, 0x1000) := by
  decide
/-- V44-22. -/
theorem test_ldMemVx_fault : after 0xF155 ((index 0xFFF).setV 0 0xAB)
    (fun t => (t.readByte 0xFFF, t.i, t.faultAddr)) = some (0, 0xFFF, 0x1000) := by decide
/-- V44-26. -/
theorem test_ldVxMem : after 0xF065 (index 0x050) (fun t => (t.getV 0, t.i)) = some (0xF0, 0x051) := by decide
/-- V44-25. -/
theorem test_ldVxMem_fault : after 0xFF65 (index 0xFF1) (fun t => (t.getV 0, t.outcome, t.faultAddr)) =
    some (0, .memoryOutOfBounds, 0x1000) := by decide
/-- V45-12. -/
theorem test_cls : after 0x00E0 { State.reset with fb := Vector.replicate 32 0xFFFF#64 }
    (fun t => (t.fb[0], t.fb[31], t.redraw)) = some (0, 0, true) := by decide
/-- V45-1: columns 60 to 63 of row 0. -/
theorem test_drw_clip : after 0xD011 (((index 0x300).writeBytes 0x300 [0xFF]).setV 0 60)
    (fun t => (t.fb[0], t.fb[1], t.getV 0xF, t.redraw)) = some (0xF#64, 0, 0, true) := by decide
/-- V45-9: a pixel goes from on to off. -/
theorem test_drw_collision :
    after 0xD011 { (index 0x300).writeBytes 0x300 [0xC0] with fb := Vector.replicate 32 (1#64 <<< 63) }
      (fun t => (t.fb[0], t.getV 0xF)) = some (1#64 <<< 62, 1) := by decide
/-- V46-1, V46-5. -/
theorem test_skp : after 0xE29E { State.reset.setV 2 7 with keyDown := 0x0080 } (·.pc) = some 0x204 ∧
    after 0xE29E { State.reset.setV 2 0x17 with keyDown := 0xFFFF } (·.pc) = some 0x202 := by decide
/-- V46-4, V46-6. -/
theorem test_sknp : after 0xE2A1 { State.reset.setV 2 7 with keyDown := 0x0080 } (·.pc) = some 0x202 ∧
    after 0xE2A1 { State.reset.setV 2 0x17 with keyDown := 0xFFFF } (·.pc) = some 0x204 := by decide
/-- V46-9. -/
theorem test_ldVxK_press :
    after 0xF30A { State.reset with kwState := .awaitPress, lastKey := some 0xB, keyDown := 0x0800 }
      (fun t => (t.kwKey, t.kwState, t.pc)) = some (0xB, .awaitRelease, 0x200) := by decide
/-- V46-12. -/
theorem test_ldVxK_release : after 0xF30A { State.reset with kwState := .awaitRelease, kwKey := 0xB }
    (fun t => (t.getV 3, t.kwState, t.pc)) = some (0x0B, .idle, 0x202) := by decide
/-- V47-1. -/
theorem test_ldVxDt : after 0xF307 { State.reset with dt := 0x2A } (·.getV 3) = some 0x2A := by decide
/-- V47-2. -/
theorem test_ldDtVx : after 0xF015 (regs01 10 0) (·.dt) = some 10 := by decide
/-- V47-3. -/
theorem test_ldStVx : after 0xF118 (regs01 0 0x1E) (·.st) = some 0x1E := by decide
/-- V48-1, V48-3. -/
theorem test_unknown : after 0x0000 State.reset (fun t => (t.pc, t.outcome, t.redraw)) = some (0x202, .ok, false) ∧
    after 0x00FD State.reset (fun t => (t.pc, t.halted)) = some (0x202, false) := by decide

/-- What `f` reads after one step of `s` as it stands. -/
def stepped {α : Type} (s : State) (f : State → α) : Option α :=
  match step s with
  | .next t => some (f t)
  | .fault _ => none
  | .refused _ => none

/-- V60-3. -/
theorem test_endOfMemory : stepped (State.reset.setPc 0xFFF)
    (fun t => (t.pc, t.faultCode.code, t.faultPc, t.halted)) = some (0xFFF, 3, 0xFFF, true) := by decide
/-- V47-4, V47-5, V47-6. -/
theorem test_tick : stepped { State.reset with schedule := [.tick], dt := 255, st := 0 } (fun t => (t.dt, t.st)) =
    some (254, 0) := by decide
/-- A record with no field supplied. -/
def noFields : CfgRecord := { ips := none, shiftVy := none, jumpVx := none, memInc := none }

/-- V70-2. -/
theorem test_reset_step : stepped { State.reset with schedule := [.reset [0x12, 0x00] noFields], halted := true }
    (fun t => (t.readByte 0x200, t.readByte 0x201, t.readByte 0x050, t.pc, t.halted)) =
      some (0x12, 0x00, 0xF0, 0x200, false) := by decide
/-- V70-4. -/
theorem test_reset_refused :
    step { State.reset with schedule := [.reset [] { noFields with ips := some 0 }] } = .refused .illegalConfiguration := rfl
/-- R50: the fields the record leaves out take the defaults of R6, the one it supplies does not. -/
theorem test_reset_defaults :
    stepped { State.reset with
        schedule := [.reset [] { noFields with shiftVy := some false }]
        cfg := { ips := 1, shiftVy := true, jumpVx := true, memInc := false } } (·.cfg) =
      some { ips := 700, shiftVy := false, jumpVx := false, memInc := true } := by decide
/-- R34, U25: a key down with no last key, and a last key that is up. -/
theorem test_keys_refused :
    step { State.reset with schedule := [.keys 0x0800 none] } = .refused .keyContractBroken ∧
    step { State.reset with schedule := [.keys 0x0800 (some 0xA)] } = .refused .keyContractBroken := ⟨rfl, rfl⟩
/-- Program P4, cycle 6: keys 3 and 7 down, 3 the last. -/
theorem test_keys : stepped { State.reset with schedule := [.keys 0x0088 (some 3)] } (fun t => (t.keyDown, t.lastKey)) =
    some (0x0088, some 3) := by decide

/-! ### Witnesses: states and operands that meet the hypotheses of each statement, clause by clause -/

/-- The reset state with the schedule `l`. -/
def sched (l : List AgentStep) : State := { State.reset with schedule := l }

/-- The state after a `StackUnderflow` from reset. -/
def latched : State := raise .stackUnderflow 0 (State.reset.setPc 0x202)

theorem coreRuns_reset : CoreRuns State.reset := ⟨rfl, rfl, by decide, rfl⟩

theorem witness_DecodeAfterEncode : (Instr.drw 0xF#4 0xF#4 0xF#4).wellFormed = true ∧
    (Instr.unknown 0xFFFF#16).wellFormed = true := by decide
theorem witness_DecoderFollowsOpcodeMap :
    opcodeMap[0]? = some (0x00E0#16, 0xFFFF#16) ∧ opcodeMap[33]? = some (0xF065#16, 0xF0FF#16) ∧
    0xFF65#16 &&& 0xF0FF#16 = 0xF065#16 := ⟨rfl, rfl, rfl⟩
theorem witness_DecoderFollowsOpcodeMap_unknown : ∀ r ∈ opcodeMap, 0x0000#16 &&& r.2 ≠ r.1 := by
  have h : (opcodeMap.all fun r => 0x0000#16 &&& r.2 != r.1) = true := rfl
  simpa using h
theorem witness_UnknownWordsAreFourSpaces : decode 0x8AB8#16 = .unknown 0x8AB8#16 := by decide
theorem witness_StepRunsDecodedInstruction :
    (CoreRuns (State.reset.setPc 0xFFE) ∧ (State.reset.setPc 0xFFE).pc.toNat ≤ 0xFFE) ∧
    ((sched [.corePass]).schedule = .corePass :: [] ∧ (sched [.corePass]).quit = false ∧ 1 ≤ (sched [.corePass]).cfg.ips ∧
      (sched [.corePass]).halted = false ∧
      (sched [.corePass]).nextDue * ((sched [.corePass]).now.denPred + 1) ≤
        (sched [.corePass]).now.num * (sched [.corePass]).cfg.ips ∧ (sched [.corePass]).pc.toNat ≤ 0xFFE) :=
  ⟨⟨coreRuns_reset, by decide⟩, rfl, rfl, by decide, rfl, by decide, by decide⟩
theorem witness_FetchPastEndTakesEndOfMemory :
    (CoreRuns (State.reset.setPc 0xFFF) ∧ 0xFFE < (State.reset.setPc 0xFFF).pc.toNat) ∧
    (CoreRuns (State.reset.setPc 0xFFFF) ∧ 0xFFE < (State.reset.setPc 0xFFFF).pc.toNat) ∧
    (∃ s : State, s.schedule = .corePass :: [] ∧ s.quit = false ∧ 1 ≤ s.cfg.ips ∧ s.halted = false ∧
      s.nextDue * (s.now.denPred + 1) ≤ s.now.num * s.cfg.ips ∧ 0xFFE < s.pc.toNat) :=
  ⟨⟨coreRuns_reset, by decide⟩, ⟨coreRuns_reset, by decide⟩,
    ⟨(sched [.corePass]).setPc 0xFFF, rfl, rfl, by decide, rfl, by decide, by decide⟩⟩

/-- A pass before the second cycle is due. -/
def early : State := { sched [.corePass] with nextDue := 1 }

theorem witness_PassesThatRunNoCycle :
    (early.schedule = .corePass :: [] ∧ 1 ≤ early.cfg.ips ∧
      early.now.num * early.cfg.ips < early.nextDue * (early.now.denPred + 1)) ∧
    (∃ s : State, s.schedule = .corePass :: [] ∧ s.quit = true) ∧
    (∃ s : State, s.schedule = [] ∧ s.quit = true) ∧
    (∃ s : State, s.schedule = [] ∧ s.quit = false ∧ 1 ≤ s.cfg.ips ∧ s.halted = true) ∧
    (∃ s : State, s.schedule = .corePass :: [] ∧ s.quit = false ∧ 1 ≤ s.cfg.ips ∧ s.halted = true ∧
      s.nextDue * (s.now.denPred + 1) ≤ s.now.num * s.cfg.ips) :=
  ⟨⟨rfl, by decide, by decide⟩, ⟨{ sched [.corePass] with quit := true }, rfl, rfl⟩,
    ⟨{ State.reset with quit := true }, rfl, rfl⟩, ⟨latched, rfl, rfl, by decide, rfl⟩,
    ⟨{ latched with schedule := [.corePass] }, rfl, rfl, by decide, rfl, by decide⟩⟩
theorem witness_TickCountsBothTimersDown : (sched [.tick]).schedule = .tick :: [] ∧ (sched [.tick]).quit = false := ⟨rfl, rfl⟩
theorem witness_TicksReachZeroAndStay :
    ({ sched (List.replicate 11 .tick) with dt := 10 } : State).schedule = List.replicate 11 .tick ++ [] ∧
    ({ sched (List.replicate 11 .tick) with dt := 10 } : State).quit = false := by decide
theorem witness_HostTouchesInputsAlone :
    ((sched [.keys 0x8000 (some 0xF)]).schedule = .keys 0x8000 (some 0xF) :: [] ∧ KeysAgree 0x8000 (some 0xF) ∧
      (sched [.keys 0x8000 (some 0xF)]).quit = false) ∧
    ((sched [.keys 0x0000 none]).schedule = .keys 0x0000 none :: [] ∧ KeysAgree 0x0000 none ∧
      (sched [.keys 0x0000 none]).quit = false) ∧
    ((sched [.keys 0x8000 none]).schedule = .keys 0x8000 none :: [] ∧ ¬ KeysAgree 0x8000 none) ∧
    ((sched [.keys 0x0000 (some 0x0)]).schedule = .keys 0x0000 (some 0x0) :: [] ∧ ¬ KeysAgree 0x0000 (some 0x0)) ∧
    (sched [.quit]).schedule = .quit :: [] ∧
    ((sched [.elapse 1 699]).schedule = .elapse 1 699 :: [] ∧ (sched [.elapse 1 699]).quit = false) :=
  ⟨⟨rfl, ⟨by decide, by decide⟩, rfl⟩, ⟨rfl, ⟨by decide, by decide⟩, rfl⟩,
    ⟨rfl, fun h => absurd (h.1.mp rfl) (by decide)⟩, ⟨rfl, fun h => absurd (h.1.mpr rfl) (by decide)⟩, rfl, rfl, rfl⟩
theorem witness_ResetRebuildsTheMachine :
    (∃ (s : State) (record : CfgRecord), s.schedule = .reset [] record :: [] ∧ record.ips = some 0) ∧
    (∃ (s : State) (record : CfgRecord), s.schedule = .reset [0x12] record :: [] ∧ record.ips = some 1) ∧
    (∃ (s : State) (record : CfgRecord), s.schedule = .reset [] record :: [] ∧ record.ips ≠ some 0 ∧ record.jumpVx = none) :=
  ⟨⟨sched [.reset [] { noFields with ips := some 0 }], _, rfl, rfl⟩,
    ⟨sched [.reset [0x12] { noFields with ips := some 1 }], _, rfl, rfl⟩,
    ⟨sched [.reset [] noFields], _, rfl, by decide, rfl⟩⟩

/-- Each clause at the ends of its range; no address falls under two of them with different bytes. -/
theorem witness_ResetMemoryMap :
    ((0x04F : Nat) ≤ 0xFFF ∧ (0x04F : Nat) < 0x050) ∧
    ((0x050 : Nat) = 0x050 + (0 : Fin 80).val ∧ (0x09F : Nat) = 0x050 + (79 : Fin 80).val) ∧
    ((0x0A0 : Nat) ≤ 0x0A0 ∧ (0x0A0 : Nat) ≤ 0x1FF ∧ (0x1FF : Nat) < 0x200) ∧
    ((0x201 : Nat) = 0x200 + 1 ∧ [0x12#8, 0x00#8][1]? = some 0x00#8) ∧
    (0x200 + [0x12#8, 0x00#8].length ≤ 0x202) := by decide
theorem witness_StoredWordIsFetched : MemoryCanonical State.reset ∧ (0xFFE : Nat) ≤ 0xFFE := ⟨rfl, Nat.le_refl _⟩
theorem witness_CanonicalMemoryIsUnique : Memory.wf [(0x050, 0x00#8), (0xFFF, 0x01#8)] = true ∧
    (∀ a, Memory.read [(0x050, 0x00#8), (0xFFF, 0x01#8)] a = Memory.read [(0x050, 0x00#8), (0xFFF, 0x01#8)] a) :=
  ⟨by decide, fun _ => rfl⟩
theorem witness_ReturnPopsTheStack :
    oneEntry.sp.val = (0 : Fin 16).val + 1 ∧ fullStack.sp.val = (15 : Fin 16).val + 1 ∧ State.reset.sp.val = 0 := by decide
theorem witness_CallPushesAndJumps :
    State.reset.sp.val = (0 : Fin 16).val ∧ ({ State.reset with sp := 15 } : State).sp.val = (15 : Fin 16).val ∧
    fullStack.sp.val = 16 := by decide
theorem witness_JumpWithOffset : State.reset.cfg.jumpVx = false ∧
    ({ State.reset with cfg := { defaultCfg with jumpVx := true } } : State).cfg.jumpVx = true := by decide
theorem witness_RandomByteIsMasked : (0x0F#8).getLsbD 4 = false := by decide
theorem witness_StoreDecimalDigits : MemoryCanonical (index 0xFFD) ∧ (index 0xFFD).i.toNat + 2 ≤ 0xFFF := ⟨rfl, by decide⟩
theorem witness_StoreRegisters :
    MemoryCanonical (index 0xFF0) ∧ (index 0xFF0).i.toNat + (0xF#4).toNat ≤ 0xFFF ∧ (index 0xFF0).cfg.memInc = true :=
  ⟨rfl, by decide, rfl⟩
theorem witness_LoadRegisters : (index 0xFFF).i.toNat + (0x0#4).toNat ≤ 0xFFF := by decide
theorem witness_TransfersPastEndFault :
    ((0x1000#16).toNat = max (index 0xFFE).i.toNat 0x1000 ∧ 0xFFF < (index 0xFFE).i.toNat + 2) ∧
    ((0x1000#16).toNat = max (index 0xFFF).i.toNat 0x1000 ∧ 0xFFF < (index 0xFFF).i.toNat + (0x1#4).toNat) ∧
    ((0xFFFF#16).toNat = max (index 0xFFFF).i.toNat 0x1000 ∧ 0xFFF < (index 0xFFFF).i.toNat + (0x0#4).toNat) ∧
    (1 ≤ drawnRows (index 0xFFE) 0x1#4 0x3#4 ∧
      0xFFF < (index 0xFFE).i.toNat + drawnRows (index 0xFFE) 0x1#4 0x3#4 - 1) := by decide

/-- V45-8's display and sprite: one pixel on, the sprite bit beside it. -/
def beside : State := { (index 0x300).writeBytes 0x300 [0x40] with fb := Vector.replicate 32 (1#64 <<< 63) }

/-- V45-9's: the sprite also falls on the pixel that is on. -/
def onto : State := { (index 0x300).writeBytes 0x300 [0xC0] with fb := Vector.replicate 32 (1#64 <<< 63) }

theorem witness_DrawXorsTheSprite :
    drawnRows State.reset 0x1#4 0x0#4 = 0 ∧
    (index 0xFFE).i.toNat + drawnRows (index 0xFFE) 0x1#4 0x2#4 - 1 ≤ 0xFFF ∧
    (drawnRows ((index 0xFFE).setV 1 31) 0x1#4 0xF#4 = 1) ∧
    (TogglesPixel onto 0x0#4 0x1#4 0x1#4 0 0 ∧ Frame.pixel onto.fb 0 0 = true) ∧
    (TogglesPixel beside 0x0#4 0x1#4 0x1#4 0 1 ∧ ¬ TogglesPixel beside 0x0#4 0x1#4 0x1#4 0 0) := by
  refine ⟨by decide, by decide, by decide, ⟨?_, by decide⟩, ?_, ?_⟩ <;> unfold TogglesPixel <;> decide

/-- The sprite of `beside` on a display that is off. -/
def blankDisplay : State := (index 0x300).writeBytes 0x300 [0x40]

/-- A sprite bit on a pixel that is off; a display with every pixel under the sprite off; and a sprite whose only bit falls on a pixel that is on, where the second drawing sees
no pixel go from on to off (log 27). -/
theorem witness_DrawTwiceRestores :
    ((0x0#4 ≠ 0xF#4 ∧ 0x1#4 ≠ 0xF#4 ∧ beside.i.toNat + drawnRows beside 0x1#4 0x1#4 - 1 ≤ 0xFFF) ∧
      TogglesPixel beside 0x0#4 0x1#4 0x1#4 0 1 ∧ Frame.pixel beside.fb 0 1 = false) ∧
    (∀ r c, TogglesPixel blankDisplay 0x0#4 0x1#4 0x1#4 r c → Frame.pixel blankDisplay.fb r c = false) ∧
    TogglesPixel blankDisplay 0x0#4 0x1#4 0x1#4 0 1 ∧
    (¬ ∃ r c, TogglesPixel State.reset 0x0#4 0x1#4 0x0#4 r c ∧ Frame.pixel State.reset.fb r c = false) := by
  refine ⟨⟨by decide, ?_, by decide⟩, fun r c _ => ?_, ?_, ?_⟩
  · unfold TogglesPixel
    decide
  · simp [blankDisplay, Frame.pixel, State.writeBytes, index, State.setI, State.reset]
  · unfold TogglesPixel
    decide
  · rintro ⟨r, c, h, -⟩
    exact absurd (Nat.lt_of_le_of_lt h.1 h.2.1) (Nat.lt_irrefl _)
theorem witness_SpriteUnitRefinesPixelLoop :
    onto.i.toNat + drawnRows onto 0x1#4 0x1#4 - 1 ≤ 0xFFF ∧ ∃ t, exec (.drw 0x0#4 0x1#4 0x1#4) onto = .next t :=
  ⟨by decide, _, rfl⟩

/-- A second drawing of a sprite whose one bit falls on a pixel that was on before the first: VF is 0 (log 27). -/
theorem test_drw_twice_flag :
    (after 0xD011 { (index 0x300).writeBytes 0x300 [0x80] with fb := Vector.replicate 32 (1#64 <<< 63) } id).bind
      (fun t => after 0xD011 t (fun u => (u.fb[0], u.getV 0xF))) = some (1#64 <<< 63, 0) := by decide

theorem witness_KeySkips :
    ((State.reset.setV 2 15).getV 2).toNat = (15 : Fin 16).val ∧ 16 ≤ ((State.reset.setV 2 16).getV 2).toNat := by decide
theorem witness_KeyWaitMachine :
    State.reset.kwState = .idle ∧
    (∃ s : State, s.kwState = .awaitPress ∧ s.lastKey = none) ∧ (∃ s : State, s.kwState = .awaitPress ∧ s.lastKey = some 0xF) ∧
    (∃ s : State, s.kwState = .awaitRelease ∧ s.keyDown ≠ 0) ∧ (∃ s : State, s.kwState = .awaitRelease ∧ s.keyDown = 0) :=
  ⟨rfl, ⟨{ State.reset with kwState := .awaitPress }, rfl, rfl⟩,
    ⟨{ State.reset with kwState := .awaitPress, lastKey := some 0xF }, rfl, rfl⟩,
    ⟨{ State.reset with kwState := .awaitRelease, keyDown := 0x8000 }, rfl, by decide⟩,
    ⟨{ State.reset with kwState := .awaitRelease }, rfl, rfl⟩⟩
theorem witness_UnknownWordDoesNothing :
    CoreRuns State.reset ∧ State.reset.pc.toNat ≤ 0xFFE ∧ decode (State.reset.readWord State.reset.pc.toNat) = .unknown 0 :=
  ⟨coreRuns_reset, by decide, by decide⟩
theorem witness_NothingStopsTheMachine :
    (ConfigLegal (sched [.reset [] noFields]) ∧
      (∀ rom record rest, (sched [.reset [] noFields]).schedule = .reset rom record :: rest → record.ips ≠ some 0) ∧
      (∀ kd lk rest, (sched [.reset [] noFields]).schedule = .keys kd lk :: rest → KeysAgree kd lk)) ∧
    (ConfigLegal (sched [.keys 0 none]) ∧
      (∀ rom record rest, (sched [.keys 0 none]).schedule = .reset rom record :: rest → record.ips ≠ some 0) ∧
      (∀ kd lk rest, (sched [.keys 0 none]).schedule = .keys kd lk :: rest → KeysAgree kd lk)) := by
  refine ⟨⟨by unfold ConfigLegal; decide, fun _ record _ h => ?_, fun _ _ _ h => by simp [sched] at h⟩,
    by unfold ConfigLegal; decide, fun _ _ _ h => by simp [sched] at h, fun kd lk _ h => ?_⟩
  · simp only [sched, List.cons.injEq, AgentStep.reset.injEq] at h
    obtain ⟨⟨-, h⟩, -⟩ := h
    subst h
    decide
  · simp only [sched, List.cons.injEq, AgentStep.keys.injEq] at h
    obtain ⟨⟨h, h'⟩, -⟩ := h
    subst h h'
    exact ⟨by decide, by decide⟩
theorem witness_FaultsArePrecise :
    (State.reset.outcome = .ok ∧ ∃ t, exec .ret State.reset = .next t ∧ t.outcome ≠ .ok) ∧
    (fullStack.outcome = .ok ∧ ∃ t, exec (.call 0x300#12) fullStack = .next t ∧ t.outcome ≠ .ok) ∧
    ((index 0xFFE).outcome = .ok ∧ ∃ t, exec (.ldB 0x0#4) (index 0xFFE) = .next t ∧ t.outcome ≠ .ok) :=
  ⟨⟨rfl, _, rfl, by decide⟩, ⟨rfl, _, rfl, by decide⟩, rfl, _, rfl, by decide⟩
theorem witness_RegisterWritesAreListed :
    ∃ t, exec (.addReg 0x0#4 0x1#4) (regs01 200 100) = .next t ∧ t.getV 0x0 ≠ (regs01 200 100).getV 0x0 ∧
      t.getV 0xF ≠ (regs01 200 100).getV 0xF ∧ writesFlag (.addReg 0x0#4 0x1#4) = true :=
  ⟨_, rfl, by decide, by decide, rfl⟩
theorem witness_OtherWritesAreListed :
    (∃ t, exec (.call 0x300#12) State.reset = .next t ∧ t.sp ≠ State.reset.sp ∧ t.pc ≠ State.reset.pc) ∧
    (∃ t, exec (.ldMemVx 0x0#4) ((index 0x300).setV 0 1) = .next t ∧ t.mem ≠ ((index 0x300).setV 0 1).mem ∧
      t.i ≠ ((index 0x300).setV 0 1).i) ∧
    (∃ t, exec .cls State.reset = .next t ∧ t.redraw ≠ State.reset.redraw) ∧
    (∃ t, exec (.ldDtVx 0x0#4) (regs01 10 0) = .next t ∧ t.dt ≠ (regs01 10 0).dt) ∧
    (∃ t, exec (.ldStVx 0x0#4) (regs01 10 0) = .next t ∧ t.st ≠ (regs01 10 0).st) ∧
    (∃ t, exec (.ldVxK 0x0#4) State.reset = .next t ∧ t.kwState ≠ State.reset.kwState) ∧
    (∃ t, exec (.rnd 0x0#4 0xFF#8) State.reset = .next t ∧ t.rndDraws ≠ State.reset.rndDraws) :=
  ⟨⟨_, rfl, by decide, by decide⟩, ⟨_, rfl, by decide, by decide⟩, ⟨_, rfl, by decide⟩, ⟨_, rfl, by decide⟩,
    ⟨_, rfl, by decide⟩, ⟨_, rfl, by decide⟩, ⟨_, rfl, by decide⟩⟩
theorem witness_HaltAndLatchLastUntilReset :
    NoResetNext latched ∧ latched.faultCode ≠ .ok ∧ latched.halted = true ∧ ∃ t, step latched = .next t :=
  ⟨fun _ _ _ h => (nomatch h), by decide, rfl, _, rfl⟩
theorem witness_RedrawExactlyForDisplay :
    (CoreRuns (State.reset.withFetchWord 16 0x00E0) ∧ (State.reset.withFetchWord 16 0x00E0).pc.toNat ≤ 0xFFE ∧
      stepped (State.reset.withFetchWord 16 0x00E0) (·.redraw) = some true) ∧
    (CoreRuns (State.reset.setPc 0xFFF) ∧ 0xFFE < (State.reset.setPc 0xFFF).pc.toNat ∧
      stepped (State.reset.setPc 0xFFF) (·.redraw) = some false) :=
  ⟨⟨⟨rfl, rfl, by decide, rfl⟩, by decide, by decide⟩, ⟨rfl, rfl, by decide, rfl⟩, by decide, by decide⟩
theorem witness_MemoryStaysCanonical :
    MemoryCanonical { State.reset with mem := [(0x050, 0x00#8), (0xFFF, 0x01#8)] } ∧
    ∃ t, step { State.reset with mem := [(0x050, 0x00#8), (0xFFF, 0x01#8)] } = .next t :=
  ⟨by unfold MemoryCanonical; decide, _, rfl⟩
theorem witness_PcStaysBounded :
    PcBounded { State.reset with pc := 0x10FE, sp := 16, stack := Vector.replicate 16 0x1000 } ∧
    ∃ t, step { State.reset with pc := 0x10FE, sp := 16, stack := Vector.replicate 16 0x1000 } = .next t :=
  ⟨by unfold PcBounded; decide, _, rfl⟩

/-- In the middle of a key wait: FX0A stands at `pc`. -/
def waiting : State := { State.reset.withFetchWord 16 0xF30A with kwState := .awaitRelease, keyDown := 0x0001 }

theorem witness_KeyWaitStaysAtInstruction :
    KeyWaitAtInstruction waiting ∧ waiting.kwState ≠ .idle ∧ stepped waiting (·.pc) = some 0x200 :=
  ⟨fun _ => ⟨by decide, 0x3#4, by decide⟩, by decide, by decide⟩
theorem witness_LatchStaysConsistent : LatchConsistent latched ∧ latched.faultCode ≠ .ok ∧ ∃ t, step latched = .next t :=
  ⟨by unfold LatchConsistent; decide, by decide, _, rfl⟩
theorem witness_SnapshotStaysCurrent :
    SnapshotCurrent { onto with fbOut := some onto.fb } ∧ SnapshotCurrent State.reset ∧
    ∃ t, step { onto with fbOut := some onto.fb } = .next t :=
  ⟨.inl rfl, .inr ⟨rfl, by decide⟩, _, rfl⟩
theorem witness_ResetMeetsInvariants :
    1 ≤ ({ defaultCfg with ips := 1 } : Cfg).ips ∧ ∃ s, s = powerOn defaultParams { defaultCfg with ips := 1 } [0x12] :=
  ⟨by decide, _, rfl⟩
theorem witness_SoundTimerInfluencesNothing :
    (∃ t, step State.reset = .next t) ∧
    (∃ r, step { State.reset with cfg := { defaultCfg with ips := 0 } } = .refused r) := ⟨⟨_, rfl⟩, _, rfl⟩
theorem witness_DeadStackEntriesAreUnobservable :
    (∀ j : Fin 16, j.val < oneEntry.sp.val → (Vector.replicate 16 0x204#16)[j] = oneEntry.stack[j]) ∧
    Vector.replicate 16 0x204#16 ≠ oneEntry.stack ∧ ∃ t, step oneEntry = .next t :=
  ⟨by decide, by decide, _, rfl⟩
theorem witness_KeyContractStays : KeyContract { sched [.keys 0 none] with keyDown := 0x0800, lastKey := some 0xB } ∧
    ∃ t, step { sched [.keys 0 none] with keyDown := 0x0800, lastKey := some 0xB } = .next t :=
  ⟨⟨by decide, by decide⟩, _, rfl⟩

end Sys2Proof.Tests
end

section
/-! SUPPORT. The access matrix of 10_state.md R39 as a relation between the parts of the state and the instructions: every
operation leaves the parts it does not name, and an execution changes a part only if the matrix lets its instruction. -/

namespace Sys2Proof.Machine

/-- The parts of the state whose writers R39 lists; `fixed` is what no instruction writes. -/
inductive StatePart where
  | registers
  | index
  | pc
  | stack
  | memory
  | display
  | delayTimer
  | soundTimer
  | keyWait
  | draws
  | latch
  | fixed

/-- The part is in `t` as it is in `s`. -/
def StatePart.Kept (s t : State) : StatePart → Prop
  | .registers => t.v = s.v
  | .index => t.i = s.i
  | .pc => t.pc = s.pc
  | .stack => t.stack = s.stack ∧ t.sp = s.sp
  | .memory => t.mem = s.mem
  | .display => t.fb = s.fb ∧ t.redraw = s.redraw ∧ t.fbOut = s.fbOut
  | .delayTimer => t.dt = s.dt
  | .soundTimer => t.st = s.st
  | .keyWait => t.kwState = s.kwState ∧ t.kwKey = s.kwKey
  | .draws => t.rndDraws = s.rndDraws
  | .latch => t.halted = s.halted ∧ t.faultCode = s.faultCode ∧ t.faultPc = s.faultPc ∧ t.faultAddr = s.faultAddr ∧
      t.outcome = s.outcome
  | .fixed => t.cfg = s.cfg ∧ t.par = s.par ∧ t.keyDown = s.keyDown ∧ t.lastKey = s.lastKey ∧ t.quit = s.quit ∧
      t.now = s.now ∧ t.nextDue = s.nextDue ∧ t.schedule = s.schedule

/-- The column of the access matrix: may the instruction change the part? `memInc` is the toggle of R204 and R205. -/
def StatePart.Writer (memInc : Bool) (i : Instr) : StatePart → Prop
  | .registers => (∃ r, writesRegister i r = true) ∨ writesFlag i = true
  | .index => (∃ nnn, i = .ldI nnn) ∨ (∃ x, i = .addI x) ∨ (∃ x, i = .ldF x) ∨
      (memInc = true ∧ ((∃ x, i = .ldMemVx x) ∨ ∃ x, i = .ldVxMem x))
  | .pc => writesPc i = true
  | .stack => i = .ret ∨ ∃ nnn, i = .call nnn
  | .memory => (∃ x, i = .ldB x) ∨ ∃ x, i = .ldMemVx x
  | .display => i = .cls ∨ ∃ x y n, i = .drw x y n
  | .delayTimer => ∃ x, i = .ldDtVx x
  | .soundTimer => ∃ x, i = .ldStVx x
  | .keyWait => ∃ x, i = .ldVxK x
  | .draws => ∃ x nn, i = .rnd x nn
  | .latch => i = .ret ∨ (∃ nnn, i = .call nnn) ∨ (∃ x y n, i = .drw x y n) ∨ (∃ x, i = .ldB x) ∨ (∃ x, i = .ldMemVx x) ∨
      ∃ x, i = .ldVxMem x
  | .fixed => False

/-! ### What each operation leaves -/

theorem StatePart.Kept.refl (s : State) (p : StatePart) : p.Kept s s := by
  cases p <;> simp [StatePart.Kept]

theorem StatePart.Kept.trans {s t u : State} {p : StatePart} (h : p.Kept s t) (h' : p.Kept t u) : p.Kept s u := by
  cases p <;> simp_all [StatePart.Kept]

variable {p : StatePart}

theorem kept_setV (s : State) (x : Nibble) (b : Byte) (hp : p ≠ .registers) : p.Kept s (s.setV x b) := by
  cases p <;> simp_all [StatePart.Kept]

theorem kept_setResultThenFlag (x : Nibble) (b : Byte) (f : Bool) (s : State) (hp : p ≠ .registers) :
    p.Kept s (setResultThenFlag x b f s) :=
  (kept_setV s x b hp).trans (kept_setV (s.setV x b) 0xF#4 (flagByte f) hp)

theorem kept_loadRegisters (x : Nibble) (s : State) (hp : p ≠ .registers) : p.Kept s (loadRegisters x s) := by
  rw [loadRegisters_frame]
  cases p <;> simp_all [StatePart.Kept]

theorem kept_setI (s : State) (w : Word) (hp : p ≠ .index) : p.Kept s (s.setI w) := by
  cases p <;> simp_all [StatePart.Kept]

theorem kept_advanceI (x : Nibble) (s : State) (hp : p = .index → s.cfg.memInc = false) : p.Kept s (advanceI x s) := by
  rw [advanceI_eq]
  cases p <;> simp_all [StatePart.Kept]

theorem kept_setPc (s : State) (w : Word) (hp : p ≠ .pc) : p.Kept s (s.setPc w) := by
  cases p <;> simp_all [StatePart.Kept]

theorem kept_skipIf (s : State) (c : Bool) (hp : p ≠ .pc) : p.Kept s (s.skipIf c) := by
  cases c
  · exact .refl s p
  · exact kept_setPc s _ hp

theorem kept_push (s : State) (w : Word) (h : s.sp.val < 16) (hp : p ≠ .stack) : p.Kept s (s.push w h) := by
  cases p <;> simp_all [StatePart.Kept]

theorem kept_drop (s : State) (hp : p ≠ .stack) : p.Kept s s.drop := by
  cases p <;> simp_all [StatePart.Kept]

theorem kept_writeBytes (s : State) (a : Nat) (bs : List Byte) (hp : p ≠ .memory) : p.Kept s (s.writeBytes a bs) := by
  cases p <;> simp_all [StatePart.Kept]

theorem kept_clear (s : State) (hp : p ≠ .display) :
    p.Kept s (State.present { s with fb := Vector.replicate 32 0 }) := by
  cases p <;> simp_all [StatePart.Kept]

theorem kept_keyWait (s : State) (w : KeyWait) (k : Nibble) (hp : p ≠ .keyWait) :
    p.Kept s { s with kwState := w, kwKey := k } := by
  cases p <;> simp_all [StatePart.Kept]

theorem kept_setV_draws (s : State) (x : Nibble) (b : Byte) (hr : p ≠ .registers) (hd : p ≠ .draws) :
    p.Kept s { s.setV x b with rndDraws := s.rndDraws + 1 } := by
  cases p <;> simp_all [StatePart.Kept]

theorem kept_drawSprite (s : State) (mask : Nat → BitVec 64) (hr : p ≠ .registers) (hd : p ≠ .display) :
    p.Kept s (drawSprite s mask) := by
  rw [drawSprite_frame]
  cases p <;> simp_all [StatePart.Kept]

theorem kept_takeFault (f : CycleOutcome) (fp fa : Word) (s : State) (hp : p ≠ .latch) :
    p.Kept s (takeFault f fp fa s) := by
  cases p <;> simp_all [StatePart.Kept]

/-- A transfer leaves what its effect leaves, unless it is the latch. -/
theorem RangeLeads.kept {n : Nat} {s k t : State} (h : RangeLeads n s k t) (hp : p ≠ .latch) (hk : p.Kept s k) :
    p.Kept s t := by
  obtain ⟨-, rfl⟩ | ⟨-, -, rfl⟩ := h
  · exact hk
  · exact kept_takeFault _ _ _ s hp

/-! ### What each instruction leaves -/

/-- An execution leaves every part that the access matrix does not let its instruction write (R39). -/
theorem exec_keeps {i : Instr} {s t : State} (h : exec i s = .next t) (hw : ¬ p.Writer s.cfg.memInc i) : p.Kept s t := by
  have ne {q : StatePart} (hq : q.Writer s.cfg.memInc i) : p ≠ q := fun e => hw (e ▸ hq)
  have hl := exec_leads h
  cases i <;> simp only [ExecLeads] at hl
  case unknown => exact hl ▸ .refl s p
  case cls => exact hl ▸ kept_clear s (ne (.inl rfl))
  case ret =>
    obtain ⟨hp, rfl⟩ | ⟨-, rfl⟩ := hl
    · exact (kept_drop s (ne (.inl rfl))).trans (kept_setPc _ _ (ne rfl))
    · exact kept_takeFault _ _ _ s (ne (.inl rfl))
  case call nnn =>
    obtain ⟨hp, rfl⟩ | ⟨-, rfl⟩ := hl
    · exact (kept_push s s.pc hp (ne (.inr ⟨nnn, rfl⟩))).trans (kept_setPc _ _ (ne rfl))
    · exact kept_takeFault _ _ _ s (ne (.inr (.inl ⟨nnn, rfl⟩)))
  case jp | jpV0 => exact hl ▸ kept_setPc s _ (ne rfl)
  case seImm | sneImm | seReg | sneReg | skp | sknp => exact hl ▸ kept_skipIf s _ (ne rfl)
  case ldImm x _ | addImm x _ | ldReg x _ | orReg x _ | andReg x _ | xorReg x _ | ldVxDt x =>
    exact hl ▸ kept_setV s x _ (ne (.inl ⟨x, beq_self_eq_true x⟩))
  case addReg | subReg | shr | subnReg | shl => exact hl ▸ kept_setResultThenFlag _ _ _ s (ne (.inr rfl))
  case rnd x nn => exact hl ▸ kept_setV_draws s x _ (ne (.inl ⟨x, beq_self_eq_true x⟩)) (ne ⟨x, nn, rfl⟩)
  case drw x y n =>
    exact RangeLeads.kept hl (ne (.inr (.inr (.inl ⟨x, y, n, rfl⟩))))
      (kept_drawSprite s _ (ne (.inr rfl)) (ne (.inr ⟨x, y, n, rfl⟩)))
  case ldVxK x =>
    have hk : p ≠ .keyWait := ne ⟨x, rfl⟩
    have hpc : p ≠ .pc := ne rfl
    obtain ⟨-, rfl⟩ | ⟨k, -, -, rfl⟩ | ⟨-, -, rfl⟩ | ⟨-, -, rfl⟩ | ⟨-, -, rfl⟩ := hl
    · exact (kept_keyWait s .awaitPress s.kwKey hk).trans (kept_setPc _ _ hpc)
    · exact (kept_keyWait s .awaitRelease k hk).trans (kept_setPc _ _ hpc)
    · exact kept_setPc s _ hpc
    · exact (kept_setV s x _ (ne (.inl ⟨x, beq_self_eq_true x⟩))).trans (kept_keyWait _ .idle s.kwKey hk)
    · exact kept_setPc s _ hpc
  case ldDtVx x =>
    subst hl
    cases p <;> simp [StatePart.Kept, StatePart.Writer] at hw ⊢
  case ldStVx x =>
    subst hl
    cases p <;> simp [StatePart.Kept, StatePart.Writer] at hw ⊢
  case ldI nnn => exact hl ▸ kept_setI s _ (ne (.inl ⟨nnn, rfl⟩))
  case addI x => exact hl ▸ kept_setI s _ (ne (.inr (.inl ⟨x, rfl⟩)))
  case ldF x => exact hl ▸ kept_setI s _ (ne (.inr (.inr (.inl ⟨x, rfl⟩))))
  case ldB x =>
    exact RangeLeads.kept hl (ne (.inr (.inr (.inr (.inl ⟨x, rfl⟩))))) (kept_writeBytes s _ _ (ne (.inl ⟨x, rfl⟩)))
  case ldMemVx x =>
    refine RangeLeads.kept hl (ne (.inr (.inr (.inr (.inr (.inl ⟨x, rfl⟩))))))
      ((kept_writeBytes s _ _ (ne (.inr ⟨x, rfl⟩))).trans (kept_advanceI x _ fun hi => ?_))
    exact Bool.eq_false_iff.mpr fun hm => ne (q := .index) (.inr (.inr (.inr ⟨hm, .inl ⟨x, rfl⟩⟩))) hi
  case ldVxMem x =>
    refine RangeLeads.kept hl (ne (.inr (.inr (.inr (.inr (.inr ⟨x, rfl⟩))))))
      ((kept_loadRegisters x s (ne (.inl ⟨x, decide_eq_true (Nat.le_refl _)⟩))).trans (kept_advanceI x _ fun hi => ?_))
    exact Bool.eq_false_iff.mpr fun hm => ne (q := .index) (.inr (.inr (.inr ⟨hm, .inr ⟨x, rfl⟩⟩))) hi

end Sys2Proof.Machine
end

section
/-! SUPPORT. A step in three parts: the agents around the core, one cycle of the core, a reset; and the induction over them that
every invariant of the core uses. -/

namespace Sys2Proof.Machine

/-- `t` is `s` but for the timers, the time, the inputs and the schedule: what moves while the core runs no cycle. -/
def OutsideOnly (s t : State) : Prop :=
  t = { s with dt := t.dt, st := t.st, nextDue := t.nextDue, now := t.now, keyDown := t.keyDown, lastKey := t.lastKey,
               quit := t.quit, schedule := t.schedule }

/-- What one cycle of a running core that answers a next state has done (R121). -/
def CycleLeads (u t : State) : Prop :=
  (0xFFE < u.pc.toNat ∧ t = takeFault .endOfMemory u.pc 0 (beginCycle u)) ∨
  (u.pc.toNat ≤ 0xFFE ∧ exec (decode (u.readWord u.pc.toNat)) ((beginCycle u).setPc (u.pc + 2)) = .next t)

theorem outsideOnly_waitDue (s : State) : OutsideOnly s s.waitDue := by
  unfold State.waitDue
  split <;> rfl

theorem OutsideOnly.advanceDue {s u : State} (h : OutsideOnly s u) : OutsideOnly s u.advanceDue := by
  rw [h]
  rfl

/-- A pass moves time, or it runs one cycle of a core that is not halted. -/
theorem PassLeads.outside_or_cycle {s u t : State} (h : PassLeads u t) (hu : OutsideOnly s u) :
    OutsideOnly s t ∨ ∃ w, OutsideOnly s w ∧ w.halted = false ∧ CycleLeads w t := by
  obtain rfl | ⟨-, rfl⟩ | ⟨hh, hp, ht⟩ | ⟨hh, hp, ht⟩ := h
  · exact .inl hu
  · exact .inl hu.advanceDue
  · exact .inr ⟨u.advanceDue, hu.advanceDue, hh, .inl ⟨hp, ht⟩⟩
  · exact .inr ⟨u.advanceDue, hu.advanceDue, hh, .inr ⟨hp, ht⟩⟩

/-- A step moves what is outside the core, runs one cycle of a core that is not halted, or resets the machine. -/
theorem step_outside_or_cycle_or_reset {s t : State} (h : step s = .next t) :
    OutsideOnly s t ∨ (∃ u, OutsideOnly s u ∧ u.halted = false ∧ CycleLeads u t) ∨
    (∃ rom record rest, s.schedule = .reset rom record :: rest ∧ 1 ≤ (latchCfg record).ips ∧
      t = resetMachine rom (latchCfg record) { s with schedule := rest }) := by
  obtain hp | ⟨rest, hp | rfl | rfl | ⟨kd, lk, -, rfl⟩ | ⟨m, d, rfl⟩ | rfl | ⟨rom, record, hs, hi, rfl⟩⟩ := step_leads h
  · exact or_assoc.mp (.inl (hp.outside_or_cycle (outsideOnly_waitDue s)))
  · exact or_assoc.mp (.inl (hp.outside_or_cycle rfl))
  · exact .inl rfl
  · exact .inl rfl
  · exact .inl rfl
  · exact .inl rfl
  · exact .inl rfl
  · exact .inr (.inr ⟨rom, record, rest, hs, hi, rfl⟩)

/-- A property of the core is an invariant if it ignores what is outside the core, every cycle keeps it, and it holds after a
reset of any state. -/
theorem step_preserves {Inv : State → Prop} (houtside : ∀ {s t}, OutsideOnly s t → Inv s → Inv t)
    (hcycle : ∀ {u t}, u.halted = false → Inv u → CycleLeads u t → Inv t)
    (hreset : ∀ rom cfg s, 1 ≤ cfg.ips → Inv (resetMachine rom cfg s)) {s t : State} (hs : Inv s) (h : step s = .next t) :
    Inv t := by
  obtain ho | ⟨u, hu, hh, hc⟩ | ⟨rom, record, rest, -, hi, rfl⟩ := step_outside_or_cycle_or_reset h
  · exact houtside ho hs
  · exact hcycle hh (houtside hu hs) hc
  · exact hreset rom _ _ hi

end Sys2Proof.Machine
end

section
/-! PROOF. The fault latch (10_state.md R32, 60_exceptions.md R280, R288 to R290). -/

namespace Sys2Proof.Machine

/-- A fault as R280 and R288 let it be recorded: an address goes with `MemoryOutOfBounds` alone, and is then invalid. -/
def FaultRecord (f : CycleOutcome) (fa : Word) : Prop :=
  f ≠ .ok ∧ (f ≠ .memoryOutOfBounds → fa = 0) ∧ (f = .memoryOutOfBounds → 0x1000 ≤ fa.toNat)

/-- The lowest invalid address of a range that passes the end of memory (R206), as the latch records it. -/
theorem faultRecord_range (i : Word) : FaultRecord .memoryOutOfBounds (BitVec.ofNat 16 (max i.toNat 0x1000)) := by
  refine ⟨by decide, fun h => absurd rfl h, fun _ => ?_⟩
  rw [BitVec.toNat_ofNat, Nat.mod_eq_of_lt (by have := i.isLt; omega)]
  exact Nat.le_max_right _ _

/-- A transfer takes a fault, or it has its effect. -/
theorem RangeLeads.fault_or_effect {n : Nat} {s k t : State} (h : RangeLeads n s k t) :
    (∃ f fa, FaultRecord f fa ∧ t = raise f fa s) ∨ t = k := by
  obtain ⟨-, rfl⟩ | ⟨-, -, rfl⟩ := h
  · exact .inr rfl
  · exact .inl ⟨_, _, faultRecord_range s.i, rfl⟩

/-- An execution takes one fault and does nothing else, or it leaves the latch, `outcome` and `halted` (R289). -/
theorem exec_fault_or_keeps_latch {i : Instr} {s t : State} (h : exec i s = .next t) :
    (∃ f fa, FaultRecord f fa ∧ t = raise f fa s) ∨ StatePart.latch.Kept s t := by
  have hl := exec_leads h
  have effect {n : Nat} {k : State} (hr : RangeLeads n s k t) (hk : StatePart.latch.Kept s k) :
      (∃ f fa, FaultRecord f fa ∧ t = raise f fa s) ∨ StatePart.latch.Kept s t :=
    hr.fault_or_effect.imp_right fun (e : t = k) => e ▸ hk
  cases i
  case ret =>
    obtain ⟨hp, rfl⟩ | ⟨-, rfl⟩ := hl
    · exact .inr (.trans (kept_drop s nofun) (kept_setPc _ _ nofun))
    · exact .inl ⟨_, _, ⟨by decide, by decide, by decide⟩, rfl⟩
  case call nnn =>
    obtain ⟨hp, rfl⟩ | ⟨-, rfl⟩ := hl
    · exact .inr (.trans (kept_push s s.pc hp nofun) (kept_setPc _ _ nofun))
    · exact .inl ⟨_, _, ⟨by decide, by decide, by decide⟩, rfl⟩
  case drw => exact effect hl (kept_drawSprite s _ nofun nofun)
  case ldB => exact effect hl (kept_writeBytes s _ _ nofun)
  case ldMemVx x => exact effect hl (.trans (kept_writeBytes s _ _ nofun) (kept_advanceI x _ nofun))
  case ldVxMem x => exact effect hl (.trans (kept_loadRegisters x s nofun) (kept_advanceI x _ nofun))
  all_goals exact .inr (exec_keeps h (by simp [StatePart.Writer]))

/-- What one cycle does to the latch: it takes one fault, or only `outcome` is set to Ok. -/
theorem CycleLeads.fault_or_keeps_latch {u t : State} (h : CycleLeads u t) :
    t.par = u.par ∧ ∃ v, StatePart.latch.Kept (beginCycle u) v ∧ v.par = u.par ∧
      (t = v ∨ ∃ f fp fa, FaultRecord f fa ∧ t = takeFault f fp fa v) := by
  obtain ⟨-, rfl⟩ | ⟨-, h⟩ := h
  · exact ⟨by simp, beginCycle u, .refl _ _, rfl, .inr ⟨_, _, _, ⟨by decide, by decide, by decide⟩, rfl⟩⟩
  · obtain ⟨-, hpar, -⟩ : StatePart.fixed.Kept _ t := exec_keeps h id
    refine ⟨hpar, ?_⟩
    obtain ⟨f, fa, hf, rfl⟩ | hk := exec_fault_or_keeps_latch h
    · exact ⟨_, kept_setPc _ _ nofun, rfl, .inr ⟨_, _, _, hf, rfl⟩⟩
    · exact ⟨t, .trans (kept_setPc _ _ nofun) hk, hpar, .inl rfl⟩

/-! ### The latch stays consistent -/

theorem LatchConsistent.of_kept {s t : State} (hs : LatchConsistent s) (hk : StatePart.latch.Kept s t) (hp : t.par = s.par) :
    LatchConsistent t := by
  obtain ⟨hh, hc, hpc, ha, ho⟩ := hk
  unfold LatchConsistent
  rwa [hh, hc, hpc, ha, ho, hp]

theorem LatchConsistent.beginCycle {s : State} (hs : LatchConsistent s) : LatchConsistent (beginCycle s) := by
  obtain ⟨hh, hc, ha, hb⟩ := hs
  exact ⟨hh, fun h => ⟨(hc h).1, rfl⟩, ha, hb⟩

/-- A first fault latches a consistent record; a later one leaves the record. -/
theorem LatchConsistent.takeFault {s : State} (hs : LatchConsistent s) {f : CycleOutcome} {fa : Word}
    (hf : FaultRecord f fa) (fp : Word) : LatchConsistent (takeFault f fp fa s) := by
  obtain ⟨hh, -, ha, hb⟩ := hs
  obtain ⟨hf, hfa, hfb⟩ := hf
  by_cases hc : s.faultCode = .ok
  · have hrun : s.halted = false := Bool.eq_false_iff.mpr fun h => (hh.mp h).2 hc
    exact ⟨by simp [hrun, hc, hf], by simp [hc, hf], by simpa [hc] using hfa, by simpa [hc] using hfb⟩
  · exact ⟨by simp [hc, hh], by simp [hc], by simpa [hc] using ha, by simpa [hc] using hb⟩

theorem LatchConsistent.cycle {u t : State} (hu : LatchConsistent u) (h : CycleLeads u t) : LatchConsistent t := by
  obtain ⟨-, v, hk, hp, rfl | ⟨f, fp, fa, hf, rfl⟩⟩ := h.fault_or_keeps_latch
  · exact hu.beginCycle.of_kept hk hp
  · exact (hu.beginCycle.of_kept hk hp).takeFault hf fp

theorem latchConsistent_powerOn (par : Params) (cfg : Cfg) (rom : List Byte) : LatchConsistent (powerOn par cfg rom) := by
  refine ⟨?_, ?_, ?_, ?_⟩ <;> simp [powerOn, State.reset]

/-- Settles O55: each cycle takes a well-formed fault or leaves the latch, and no other agent touches it. -/
theorem latchStaysConsistent : Obligations.LatchStaysConsistent := by
  intro s t hs h
  refine step_preserves (Inv := LatchConsistent) (fun ho hs => ?_) (fun _ hu hc => hu.cycle hc)
    (fun rom cfg s _ => latchConsistent_powerOn s.par cfg rom) hs h
  rw [ho]
  exact hs

/-! ### The latch and a halt last until a reset -/

/-- Once a fault is latched, a cycle leaves its record (R32). -/
theorem CycleLeads.keeps_first_fault {u t : State} (h : CycleLeads u t) (hc : u.faultCode ≠ .ok) :
    t.faultCode = u.faultCode ∧ t.faultPc = u.faultPc ∧ t.faultAddr = u.faultAddr := by
  obtain ⟨-, v, ⟨-, hvc, hvp, hva, -⟩, -, rfl | ⟨f, fp, fa, -, rfl⟩⟩ := h.fault_or_keeps_latch
  · exact ⟨hvc, hvp, hva⟩
  · simp [hvc, hvp, hva, hc]

/-- Settles O50: a step without a reset is outside the core or one cycle; a halted core has no cycle. -/
theorem haltAndLatchLastUntilReset : Obligations.HaltAndLatchLastUntilReset := by
  intro s t hn h
  obtain ho | ⟨u, hu, hh, hc⟩ | ⟨rom, record, rest, hs, -⟩ := step_outside_or_cycle_or_reset h
  · exact ⟨fun _ => by rw [ho]; exact ⟨rfl, rfl, rfl⟩, fun _ => ho⟩
  · rw [hu] at hh hc
    refine ⟨hc.keeps_first_fault, fun hs => ?_⟩
    exact absurd (hs.symm.trans hh) (by decide)
  · exact absurd hs (hn rom record rest)

end Sys2Proof.Machine
end

section
/-! PROOF. The bound on `pc` and on the return addresses in use (10_state.md R24, 41_control_flow.md R150 to R153). -/

namespace Sys2Proof.Machine

theorem PcBounded.of_kept {s t : State} (hs : PcBounded s) (hpc : StatePart.pc.Kept s t) (hst : StatePart.stack.Kept s t) :
    PcBounded t := by
  obtain ⟨hstack, hsp⟩ := hst
  unfold PcBounded
  rwa [hpc, hstack, hsp]

theorem PcBounded.setPc {s : State} (hs : PcBounded s) {w : Word} (hw : w.toNat ≤ 0x10FE) : PcBounded (s.setPc w) :=
  ⟨hw, hs.2⟩

/-- The top entry is one of those in use. -/
theorem PcBounded.top_le {s : State} (hs : PcBounded s) (h : 0 < s.sp.val) : (s.top h).toNat ≤ 0x1000 :=
  (hs.2 ⟨s.sp.val - 1, by omega⟩ (Nat.sub_lt h Nat.one_pos)).2

theorem PcBounded.drop {s : State} (hs : PcBounded s) : PcBounded s.drop :=
  ⟨hs.1, fun k hk => hs.2 k (Nat.lt_of_lt_of_le hk (Nat.sub_le _ _))⟩

theorem PcBounded.push {s : State} (hs : PcBounded s) {w : Word} (h : s.sp.val < 16) (h2 : 2 ≤ w.toNat)
    (hw : w.toNat ≤ 0x1000) : PcBounded (s.push w h) := by
  refine ⟨hs.1, fun k hk => ?_⟩
  rw [State.push_sp] at hk
  simp only [State.push_stack, Fin.getElem_fin, Vector.getElem_set]
  split
  · exact ⟨h2, hw⟩
  · next hne => exact hs.2 k (by simp only at hk; omega)

/-- A skip from a post-fetch pc lands at most at 0x1002. -/
theorem PcBounded.skipIf {s : State} (hs : PcBounded s) (hpc : s.pc.toNat ≤ 0x1000) (c : Bool) : PcBounded (s.skipIf c) := by
  cases c
  · exact hs
  · exact hs.setPc (by bv_omega)

/-- The hold of FX0A takes back the fetch's advance. -/
theorem PcBounded.hold {s : State} (hs : PcBounded s) (h2 : 2 ≤ s.pc.toNat) : PcBounded s.hold :=
  hs.setPc (by have := hs.1; bv_omega)

theorem addrOperand_le (nnn : Addr) : (addrOperand nnn).toNat ≤ 0xFFF := by
  rw [addrOperand, BitVec.toNat_setWidth_of_le (by decide)]
  omega

/-- BNNN reaches at most 0xFFF + 0xFF (R153). -/
theorem addrOperand_add_byteOperand_le (nnn : Addr) (b : Byte) : (addrOperand nnn + byteOperand b).toNat ≤ 0x10FE := by
  have ha := addrOperand_le nnn
  have hb : (byteOperand b).toNat ≤ 0xFF := by
    rw [byteOperand, BitVec.toNat_setWidth_of_le (by decide)]
    omega
  bv_omega

/-- An execution after the fetch keeps the bound: it jumps to a 12-bit address or a sum with a byte, returns to an entry in use,
skips, holds, or leaves `pc`. -/
theorem PcBounded.exec {i : Instr} {s t : State} (hs : PcBounded s) (h2 : 2 ≤ s.pc.toNat) (hpc : s.pc.toNat ≤ 0x1000)
    (h : exec i s = .next t) : PcBounded t := by
  have hl := exec_leads h
  cases i
  case ret =>
    obtain ⟨hp, rfl⟩ | ⟨-, rfl⟩ := hl
    · exact hs.drop.setPc (Nat.le_trans (hs.top_le hp) (by decide))
    · exact hs.of_kept (kept_takeFault _ _ _ s nofun) (kept_takeFault _ _ _ s nofun)
  case call nnn =>
    obtain ⟨hp, rfl⟩ | ⟨-, rfl⟩ := hl
    · exact (hs.push hp h2 hpc).setPc (Nat.le_trans (addrOperand_le nnn) (by decide))
    · exact hs.of_kept (kept_takeFault _ _ _ s nofun) (kept_takeFault _ _ _ s nofun)
  case jp nnn => exact hl ▸ hs.setPc (Nat.le_trans (addrOperand_le nnn) (by decide))
  case jpV0 nnn => exact hl ▸ hs.setPc (addrOperand_add_byteOperand_le nnn _)
  case seImm | sneImm | seReg | sneReg | skp | sknp => exact hl ▸ hs.skipIf hpc _
  case ldVxK x =>
    obtain ⟨-, rfl⟩ | ⟨k, -, -, rfl⟩ | ⟨-, -, rfl⟩ | ⟨-, -, rfl⟩ | ⟨-, -, rfl⟩ := hl
    · exact PcBounded.hold (s := { s with kwState := .awaitPress }) hs h2
    · exact PcBounded.hold (s := { s with kwKey := k, kwState := .awaitRelease }) hs h2
    · exact hs.hold h2
    · exact hs
    · exact hs.hold h2
  all_goals
    exact hs.of_kept (exec_keeps h (by simp [StatePart.Writer, writesPc])) (exec_keeps h (by simp [StatePart.Writer]))

theorem PcBounded.cycle {u t : State} (hu : PcBounded u) (h : CycleLeads u t) : PcBounded t := by
  obtain ⟨-, rfl⟩ | ⟨hp, h⟩ := h
  · exact PcBounded.of_kept (s := beginCycle u) hu (kept_takeFault _ _ _ _ nofun) (kept_takeFault _ _ _ _ nofun)
  · have hpc : (u.pc + 2).toNat = u.pc.toNat + 2 := by bv_omega
    refine PcBounded.exec (s := (beginCycle u).setPc (u.pc + 2)) ⟨?_, hu.2⟩ ?_ ?_ h <;> rw [State.setPc_pc, hpc] <;> omega

theorem pcBounded_powerOn (par : Params) (cfg : Cfg) (rom : List Byte) : PcBounded (powerOn par cfg rom) :=
  ⟨by simp [powerOn, State.reset], fun _ hk => absurd hk (Nat.not_lt_zero _)⟩

/-- Settles O53: a cycle keeps the bound, and no other agent but a reset moves `pc` or the stack. -/
theorem pcStaysBounded : Obligations.PcStaysBounded := by
  intro s t hs h
  refine step_preserves (Inv := PcBounded) (fun ho hs => ?_) (fun _ hu hc => hu.cycle hc)
    (fun rom cfg s _ => pcBounded_powerOn s.par cfg rom) hs h
  rw [ho]
  exact hs

end Sys2Proof.Machine
end

section
/-! PROOF. The access matrix and the register destinations (10_state.md R20 to R31, R39). -/

namespace Sys2Proof.Machine

/-- A part that changed is one the matrix lets the instruction write. -/
theorem writer_of_changed {i : Instr} {s t : State} (h : exec i s = .next t) (p : StatePart) (hc : ¬ p.Kept s t) :
    p.Writer s.cfg.memInc i :=
  not_not.mp fun hw => hc (exec_keeps h hw)

/-- Settles O49: column by column, what changed has its writer, and nothing writes the fixed part. -/
theorem otherWritesAreListed : Obligations.OtherWritesAreListed := by
  intro i s t h
  have changed := writer_of_changed h
  exact ⟨fun hc => changed .stack (not_and_or.mpr hc), changed .memory,
    fun hc => changed .display (by simpa only [StatePart.Kept, not_and_or] using hc),
    changed .delayTimer, changed .soundTimer, fun hc => changed .keyWait (not_and_or.mpr hc),
    changed .index, changed .pc, changed .draws, exec_keeps (p := .fixed) h id⟩

/-! ### General registers -/

/-- A register other than the destination is left. -/
theorem eq_of_getV_setV_ne {s : State} {x r : Nibble} {b : Byte} (h : (s.setV x b).getV r ≠ s.getV r) : r = x := by
  by_contra hr
  simp [hr] at h

/-- Of result and flag, what changes is the destination or VF. -/
theorem eq_or_eq_of_getV_setResultThenFlag_ne {x r : Nibble} {b : Byte} {f : Bool} {s : State}
    (h : (setResultThenFlag x b f s).getV r ≠ s.getV r) : r = x ∨ r = 0xF#4 := by
  by_contra! hr
  simp [getV_setResultThenFlag, hr] at h

/-- A general register that changes is a destination of the instruction, or VF when the instruction is a flag writer (R21). -/
theorem exec_getV_ne {i : Instr} {s t : State} (h : exec i s = .next t) {r : Nibble} (hr : t.getV r ≠ s.getV r) :
    writesRegister i r = true ∨ (r = 0xF#4 ∧ writesFlag i = true) := by
  have hl := exec_leads h
  have hv : ¬ StatePart.registers.Kept s t := fun hv => hr (State.getV_congr hv r)
  cases i <;> simp only [ExecLeads] at hl
  case ldImm | addImm | ldReg | orReg | andReg | xorReg | ldVxDt =>
    exact .inl (beq_iff_eq.mpr (eq_of_getV_setV_ne (hl ▸ hr)))
  case rnd x nn =>
    subst hl
    exact .inl (beq_iff_eq.mpr (eq_of_getV_setV_ne (b := Config.rndByte s.rndDraws &&& nn) hr))
  case addReg | subReg | shr | subnReg | shl =>
    exact (eq_or_eq_of_getV_setResultThenFlag_ne (hl ▸ hr)).imp beq_iff_eq.mpr (⟨·, rfl⟩)
  case drw x y n =>
    obtain ⟨-, rfl⟩ | ⟨-, -, rfl⟩ := hl
    · rw [getV_drawSprite] at hr
      exact .inr ⟨by_contra fun hf => hr (if_neg hf), rfl⟩
    · exact (hv (kept_takeFault _ _ _ s nofun)).elim
  case ldVxK x =>
    obtain ⟨-, rfl⟩ | ⟨k, -, -, rfl⟩ | ⟨-, -, rfl⟩ | ⟨-, -, rfl⟩ | ⟨-, -, rfl⟩ := hl
    · exact (hv rfl).elim
    · exact (hv rfl).elim
    · exact (hv rfl).elim
    · exact .inl (beq_iff_eq.mpr (eq_of_getV_setV_ne (b := s.kwKey.setWidth 8) hr))
    · exact (hv rfl).elim
  case ldVxMem x =>
    obtain ⟨-, rfl⟩ | ⟨-, -, rfl⟩ := hl
    · have hadv := State.getV_congr (kept_advanceI (p := .registers) x (loadRegisters x s) nofun) r
      rw [hadv, getV_loadRegisters] at hr
      exact .inl (decide_eq_true (by_contra fun hx => hr (if_neg hx)))
    · exact (hv (kept_takeFault _ _ _ s nofun)).elim
  all_goals exact absurd (exec_keeps h (by simp [StatePart.Writer, writesRegister, writesFlag])) hv

theorem flagByte_eq (f : Bool) : flagByte f = 0#8 ∨ flagByte f = 1#8 := by
  cases f
  · exact .inl rfl
  · exact .inr rfl

/-- A flag writer leaves the byte of its flag in VF (R170, R224), unless it is a DXYN that faults. -/
theorem exec_flag {i : Instr} {s t : State} (h : exec i s = .next t) (hw : writesFlag i = true) :
    (∃ f, t.getV 0xF#4 = flagByte f) ∨ ((∃ x y n, i = .drw x y n) ∧ t.outcome = .memoryOutOfBounds ∧ t.v = s.v) := by
  have hl := exec_leads h
  cases i <;> simp only [writesFlag, Bool.false_eq_true] at hw <;> simp only [ExecLeads] at hl
  case addReg | subReg | shr | subnReg | shl => exact .inl ⟨_, by rw [hl, getV_setResultThenFlag, if_pos rfl]⟩
  case drw x y n =>
    obtain ⟨-, rfl⟩ | ⟨-, -, rfl⟩ := hl
    · exact .inl ⟨_, by rw [getV_drawSprite, if_pos rfl]⟩
    · exact .inr ⟨⟨x, y, n, rfl⟩, takeFault_outcome _ _ _ s, takeFault_v _ _ _ s⟩

/-- Settles O48: the writers of registers one by one, and the flag writers leave a flag's byte. -/
theorem registerWritesAreListed : Obligations.RegisterWritesAreListed := by
  intro i s t h
  refine ⟨fun r hr => exec_getV_ne h hr, fun hw => ?_⟩
  obtain ⟨f, hf⟩ | hdrw := exec_flag h hw
  · exact hf ▸ or_assoc.mp (.inl (flagByte_eq f))
  · exact .inr (.inr hdrw)

end Sys2Proof.Machine
end

section
/-! PROOF. No instruction stops (93_implementation_defined.md, opening). -/

namespace Sys2Proof.Machine

theorem withRange_answers (n : Nat) (s k : State) : ∃ t, withRange n s k = .next t := by
  obtain ⟨-, h⟩ | ⟨-, -, h⟩ := withRange_cases n s k
  · exact ⟨_, h⟩
  · exact ⟨_, h⟩

/-- Every execution answers a next state: where a meaning branches, each branch does. -/
theorem exec_answers (i : Instr) (s : State) : ∃ t, exec i s = .next t := by
  cases i
  case ret =>
    by_cases h : 0 < s.sp.val
    · exact ⟨_, dif_pos h⟩
    · exact ⟨_, dif_neg h⟩
  case call nnn =>
    by_cases h : s.sp.val < 16
    · exact ⟨_, dif_pos h⟩
    · exact ⟨_, dif_neg h⟩
  case ldVxK x =>
    simp only [exec, execLdVxK]
    split
    · exact ⟨_, rfl⟩
    · split <;> exact ⟨_, rfl⟩
    · split <;> exact ⟨_, rfl⟩
  case drw => exact withRange_answers _ _ _
  case ldB => exact withRange_answers _ _ _
  case ldMemVx => exact withRange_answers _ _ _
  case ldVxMem => exact withRange_answers _ _ _
  all_goals exact ⟨_, rfl⟩

/-- A pass over a legal configuration answers a next state (R50). -/
theorem corePass_answers {s : State} (hi : 1 ≤ s.cfg.ips) : ∃ t, corePass s = .next t := by
  simp only [corePass, cycle, Nat.ne_of_gt hi, if_false]
  split
  · exact ⟨_, rfl⟩
  split
  · split
    · exact ⟨_, rfl⟩
    split
    · exact ⟨_, rfl⟩
    · exact exec_answers _ _
  · exact ⟨_, rfl⟩

theorem unlessQuit_answers (t s : State) : ∃ u, unlessQuit t s = .next u := by
  unfold unlessQuit
  split <;> exact ⟨_, rfl⟩

/-- Settles O46: only a reset to an IPS of 0, a pass over one, and a broken key contract are refused. -/
theorem nothingStopsTheMachine : Obligations.NothingStopsTheMachine := by
  refine ⟨exec_answers, fun s hi hreset hkeys => ?_⟩
  unfold step
  split
  · exact corePass_answers (by rwa [State.waitDue_cfg])
  · next a rest hs =>
    cases a with
    | corePass => exact corePass_answers hi
    | tick => exact unlessQuit_answers _ _
    | keys kd lk =>
      rw [agentStep, if_pos ((keysAgree_iff kd lk).mpr (hkeys kd lk rest hs))]
      exact unlessQuit_answers _ _
    | elapse m d => exact unlessQuit_answers _ _
    | quit => exact ⟨_, rfl⟩
    | reset rom record =>
      rw [agentStep, if_neg (mt (latchCfg_ips_eq_zero record).mp (hreset rom record rest hs))]
      exact ⟨_, rfl⟩

end Sys2Proof.Machine
end

section
/-! PROOF. Reset (10_state.md R40 to R54, 70_reset_and_hazards.md R320, R321). -/

namespace Sys2Proof.Machine

/-! ### Memory after reset (R45, R46) -/

theorem Memory.initial_of_not_font {a : Nat} (h : a < 0x050 ∨ 0x0A0 ≤ a) : Memory.initial a = 0 :=
  if_neg (by simp only [Config.fontBase]; omega)

/-- Memory after reset, at every address: the ROM from 0x200, FONT from 0x050 to 0x09F, and 0 elsewhere (R46). -/
theorem read_resetMemory (font : Vector Byte 80) (rom : List Byte) {a : Nat} (ha : a ≤ 0xFFF) :
    Memory.read (resetMemory font rom) a =
      if 0x200 ≤ a then rom.getD (a - 0x200) 0
      else if 0x050 ≤ a ∧ a < 0x0A0 then font.toList.getD (a - 0x050) 0 else 0 := by
  have hfont : font.toList.length = 80 := by simp
  have hrom : (rom.take Config.progCap).length = min 3584 rom.length := List.length_take
  have hwf := Memory.wf_writeBytes Memory.wf_nil Config.fontBase font.toList
  rw [resetMemory, Memory.read_writeBytes hwf (by rw [hrom, Config.progBase]; omega),
    Memory.read_writeBytes Memory.wf_nil (by rw [hfont, Config.fontBase]; omega), hfont, hrom, Memory.read_nil,
    Config.progBase, Config.fontBase]
  by_cases hr : 0x200 ≤ a
  · rw [if_pos hr]
    by_cases hl : a < 0x200 + min 3584 rom.length
    · rw [if_pos ⟨hr, hl⟩, List.getD_eq_getElem?_getD, List.getElem?_take_of_lt (by rw [Config.progCap]; omega),
        ← List.getD_eq_getElem?_getD]
    · rw [if_neg (fun h => hl h.2), if_neg (by omega), Memory.initial_of_not_font (by omega),
        List.getD_eq_default _ _ (by omega)]
  · rw [if_neg (fun h => hr h.1), if_neg hr]
    by_cases hf : 0x050 ≤ a ∧ a < 0x0A0
    · rw [if_pos (by omega), if_pos hf]
    · rw [if_neg (by omega), if_neg hf, Memory.initial_of_not_font (by omega)]

theorem readByte_powerOn (par : Params) (cfg : Cfg) (rom : List Byte) {a : Nat} (ha : a ≤ 0xFFF) :
    (powerOn par cfg rom).readByte a =
      if 0x200 ≤ a then rom.getD (a - 0x200) 0
      else if 0x050 ≤ a ∧ a < 0x0A0 then par.font.toList.getD (a - 0x050) 0 else 0 :=
  read_resetMemory par.font rom ha

/-- Settles O13, by the one description of memory after reset. -/
theorem resetMemoryMap : Obligations.ResetMemoryMap := by
  intro par cfg rom a ha
  rw [readByte_powerOn par cfg rom ha]
  refine ⟨fun h => ?_, fun k hk => ?_, fun h h' => ?_, fun k b hk hb => ?_, fun h => ?_⟩
  · rw [if_neg (by omega), if_neg (by omega)]
  · have := k.isLt
    rw [if_neg (by omega), if_pos (by omega), hk, Nat.add_sub_cancel_left]
    simp
  · rw [if_neg (by omega), if_neg (by omega)]
  · rw [if_pos (by omega), hk, Nat.add_sub_cancel_left, List.getD_eq_getElem?_getD, hb, Option.getD_some]
  · rw [if_pos (by omega), List.getD_eq_default _ _ (by omega)]

/-! ### The values after reset -/

/-- Settles O12: a record is refused exactly when it supplies an IPS of 0, and else latched with its defaults. -/
theorem resetRebuildsTheMachine : Obligations.ResetRebuildsTheMachine := by
  intro s rom record rest hs
  rw [step, hs]
  refine ⟨fun h => ?_, fun h => ?_⟩
  · exact if_pos ((latchCfg_ips_eq_zero record).mpr h)
  · exact if_neg (mt (latchCfg_ips_eq_zero record).mp h)

/-- Settles O14: the first fetch reads the first two bytes of the ROM. -/
theorem resetStatedValues : Obligations.ResetStatedValues := by
  intro par cfg rom
  refine ⟨rfl, rfl, rfl, ?_⟩
  rw [State.readWord, readByte_powerOn par cfg rom (by decide), readByte_powerOn par cfg rom (by decide)]
  rfl

/-- Writing what unlisted addresses read as lists nothing. -/
theorem Memory.writeBytes_initial {a : Nat} {bs : List Byte} (h : ∀ j (hj : j < bs.length), bs[j] = Memory.initial (a + j)) :
    Memory.writeBytes [] a bs = [] := by
  induction bs generalizing a with
  | nil => rfl
  | cons b bs ih =>
    have hb : b = Memory.initial a := h 0 (Nat.zero_lt_succ _)
    have hw : Memory.write [] a b = [] := by simp [Memory.write, Memory.put, Memory.cell, hb]
    rw [Memory.writeBytes_cons, hw]
    exact ih fun j hj => by
      rw [Nat.add_right_comm]
      exact h (j + 1) (Nat.succ_lt_succ hj)

/-- The default FONT is what unlisted addresses hold, so a reset with it and no ROM lists nothing (log 14). -/
theorem resetMemory_default : resetMemory defaultFont [] = [] := by
  rw [resetMemory, List.take_nil, Memory.writeBytes_nil]
  refine Memory.writeBytes_initial fun j hj => ?_
  have hj : j < 80 := by simpa using hj
  have hin : 0x050 + j < 0x050 + 80 := by omega
  simp only [Memory.initial, Config.fontBase, if_pos (And.intro (Nat.le_add_right 0x050 j) hin), Nat.add_sub_cancel_left]
  simp [defaultFont]

/-- State.reset is the reset with the default parameters and no ROM (log 4). -/
theorem reset_eq_powerOn : State.reset = powerOn defaultParams defaultCfg [] := by
  rw [powerOn, show defaultParams.font = defaultFont from rfl, resetMemory_default]
  rfl

/-- Settles O15: the zeros of the reset state are read off it. -/
theorem resetDecidedValues : Obligations.ResetDecidedValues := by
  refine ⟨fun par cfg rom => ⟨fun r => ?_, rfl, rfl, fun k => ?_, fun y x => ?_, rfl, rfl, rfl, rfl, rfl, rfl, rfl, rfl,
    rfl⟩, reset_eq_powerOn, rfl⟩
  · simp [powerOn, State.reset, State.getV]
  · simp [powerOn, State.reset]
  · simp [powerOn, State.reset, Frame.pixel]

/-! ### The invariants at reset -/

theorem memoryCanonical_powerOn (par : Params) (cfg : Cfg) (rom : List Byte) : MemoryCanonical (powerOn par cfg rom) :=
  Memory.wf_writeBytes (Memory.wf_writeBytes Memory.wf_nil _ _) _ _

theorem snapshotCurrent_powerOn (par : Params) (cfg : Cfg) (rom : List Byte) : SnapshotCurrent (powerOn par cfg rom) :=
  .inr ⟨rfl, fun y => by simp [powerOn, State.reset]⟩

theorem keyContract_powerOn (par : Params) (cfg : Cfg) (rom : List Byte) : KeyContract (powerOn par cfg rom) :=
  ⟨⟨fun _ => rfl, fun _ => rfl⟩, nofun⟩

/-- Settles O57: State.reset is itself such a reset, and each invariant holds after any. -/
theorem resetMeetsInvariants : Obligations.ResetMeetsInvariants := by
  intro par cfg rom hi s hs
  obtain ⟨par, cfg, rom, hi, rfl⟩ : ∃ par cfg rom, 1 ≤ Cfg.ips cfg ∧ s = powerOn par cfg rom :=
    hs.elim (fun h => ⟨par, cfg, rom, hi, h⟩)
      (fun h => ⟨defaultParams, defaultCfg, [], by decide, h.trans reset_eq_powerOn⟩)
  exact ⟨memoryCanonical_powerOn par cfg rom, pcBounded_powerOn par cfg rom, fun h => absurd rfl h,
    latchConsistent_powerOn par cfg rom, snapshotCurrent_powerOn par cfg rom, hi, keyContract_powerOn par cfg rom⟩

end Sys2Proof.Machine
end

section
/-! PROOF. What cannot be learned: ST and the stack entries at or above `sp` decide nothing (10_state.md R25, R27). One relation
carries both statements: two states alike but for the one or the other, and every operation keeps them alike. -/

namespace Sys2Proof.Machine

/-- `s` with another `ST` and another stack. -/
def State.swap (s : State) (c : Byte) (k : Vector Word 16) : State := { s with st := c, stack := k }

@[simp] theorem State.swap_kwState (s : State) (c : Byte) (k : Vector Word 16) : (s.swap c k).kwState = s.kwState := rfl
@[simp] theorem State.swap_lastKey (s : State) (c : Byte) (k : Vector Word 16) : (s.swap c k).lastKey = s.lastKey := rfl
@[simp] theorem State.swap_schedule (s : State) (c : Byte) (k : Vector Word 16) : (s.swap c k).schedule = s.schedule := rfl

/-- `s'` is `s` but for `ST`, if `sound` lets it differ, and for stack entries at or above `sp`, if `dead` lets them. -/
def Alike (sound dead : Prop) (s s' : State) : Prop :=
  ∃ c k, s' = s.swap c k ∧ (sound ∨ c = s.st) ∧ (dead ∨ k = s.stack) ∧ ∀ j : Fin 16, j.val < s.sp.val → k[j] = s.stack[j]

/-- Related answers: related next states, or the same refusal. -/
inductive RelatedResults (R : State → State → Prop) : Result → Result → Prop where
  | next {t t' : State} (h : R t t') : RelatedResults R (.next t) (.next t')
  | refused (r : Refusal) : RelatedResults R (.refused r) (.refused r)

variable {sound dead : Prop} {s s' : State}

theorem Alike.refl (s : State) : Alike sound dead s s := ⟨s.st, s.stack, rfl, .inr rfl, .inr rfl, fun _ _ => rfl⟩

theorem RelatedResults.ite {R : State → State → Prop} {c : Prop} [Decidable c] {a a' b b' : Result}
    (ha : RelatedResults R a a') (hb : RelatedResults R b b') :
    RelatedResults R (if c then a else b) (if c then a' else b') := by
  split
  · exact ha
  · exact hb

/-! ### Operations -/

theorem Alike.takeFault (h : Alike sound dead s s') (f : CycleOutcome) (fp fa : Word) :
    Alike sound dead (takeFault f fp fa s) (takeFault f fp fa s') := by
  obtain ⟨c, k, rfl, hc⟩ := h
  rw [takeFault_frame, takeFault_frame]
  exact ⟨c, k, rfl, hc⟩

theorem Alike.raise (h : Alike sound dead s s') (f : CycleOutcome) (fa : Word) :
    Alike sound dead (raise f fa s) (raise f fa s') := by
  obtain ⟨c, k, rfl, hc⟩ := h
  exact Alike.takeFault ⟨c, k, rfl, hc⟩ f (s.pc - 2) fa

theorem Alike.withRange (h : Alike sound dead s s') {t t' : State} (ht : Alike sound dead t t') (n : Nat) :
    RelatedResults (Alike sound dead) (withRange n s t) (withRange n s' t') := by
  have hi : s'.i = s.i := by
    obtain ⟨c, k, rfl, -⟩ := h
    rfl
  unfold Machine.withRange
  rw [hi]
  split
  · exact .next (h.raise _ _)
  · exact .next ht

theorem Alike.skipIf (h : Alike sound dead s s') (b : Bool) : Alike sound dead (s.skipIf b) (s'.skipIf b) := by
  obtain ⟨c, k, rfl, hc⟩ := h
  rw [State.skipIf_eq, State.skipIf_eq]
  exact ⟨c, k, rfl, hc⟩

theorem Alike.advanceI (h : Alike sound dead s s') (x : Nibble) : Alike sound dead (advanceI x s) (advanceI x s') := by
  obtain ⟨c, k, rfl, hc⟩ := h
  rw [advanceI_eq, advanceI_eq]
  exact ⟨c, k, rfl, hc⟩

theorem Alike.loadRegisters (h : Alike sound dead s s') (x : Nibble) :
    Alike sound dead (loadRegisters x s) (loadRegisters x s') := by
  obtain ⟨c, k, rfl, hc⟩ := h
  refine ⟨c, k, rfl, ?_⟩
  rw [loadRegisters_frame]
  exact hc

/-- RET reads an entry in use, and leaves fewer in use. -/
theorem Alike.ret (h : Alike sound dead s s') : RelatedResults (Alike sound dead) (execRet s) (execRet s') := by
  obtain ⟨c, k, rfl, hc, hk, hu⟩ := h
  by_cases hp : 0 < s.sp.val
  · have htop : (s.swap c k).top hp = s.top hp := hu ⟨s.sp.val - 1, by omega⟩ (Nat.sub_lt hp Nat.one_pos)
    rw [execRet, execRet, dif_pos hp, dif_pos (show 0 < (s.swap c k).sp.val from hp), htop]
    exact .next ⟨c, k, rfl, hc, hk, fun j hj => hu j (Nat.lt_of_lt_of_le hj (Nat.sub_le _ _))⟩
  · rw [execRet, execRet, dif_neg hp, dif_neg (show ¬ 0 < (s.swap c k).sp.val from hp)]
    exact .next (Alike.raise ⟨c, k, rfl, hc, hk, hu⟩ _ _)

/-- CALL writes the same entry into both stacks, and that entry is then in use. -/
theorem Alike.call (h : Alike sound dead s s') (nnn : Addr) :
    RelatedResults (Alike sound dead) (execCall nnn s) (execCall nnn s') := by
  obtain ⟨c, k, rfl, hc, hk, hu⟩ := h
  by_cases hp : s.sp.val < 16
  · rw [execCall, execCall, dif_pos hp, dif_pos (show (s.swap c k).sp.val < 16 from hp)]
    refine .next ⟨c, k.set s.sp.val s.pc hp, rfl, hc, hk.imp_right fun e => ?_, fun j hj => ?_⟩
    · rw [e]
      rfl
    · simp only [State.setPc_stack, State.push_stack, Fin.getElem_fin, Vector.getElem_set]
      split
      · rfl
      · next hne => exact hu j (by simp only [State.setPc_sp, State.push_sp] at hj; omega)
  · rw [execCall, execCall, dif_neg hp, dif_neg (show ¬ (s.swap c k).sp.val < 16 from hp)]
    exact .next (Alike.raise ⟨c, k, rfl, hc, hk, hu⟩ _ _)

/-- FX0A takes the same arm of its machine from both states. -/
theorem Alike.ldVxK (h : Alike sound dead s s') (x : Nibble) :
    RelatedResults (Alike sound dead) (execLdVxK x s) (execLdVxK x s') := by
  obtain ⟨c, k, rfl, hc⟩ := h
  cases hw : s.kwState with
  | idle =>
    simp only [execLdVxK, State.swap_kwState, hw]
    exact .next ⟨c, k, rfl, hc⟩
  | awaitPress =>
    cases hl : s.lastKey <;> simp only [execLdVxK, State.swap_kwState, State.swap_lastKey, hw, hl] <;>
      exact .next ⟨c, k, rfl, hc⟩
  | awaitRelease =>
    simp only [execLdVxK, State.swap_kwState, hw]
    exact .ite (.next ⟨c, k, rfl, hc⟩) (.next ⟨c, k, rfl, hc⟩)

/-! ### Executions, cycles and steps -/

/-- Executions from alike states answer alike: only RET and CALL meet the stack, and only FX18 meets ST. -/
theorem Alike.exec (h : Alike sound dead s s') (i : Instr) : RelatedResults (Alike sound dead) (exec i s) (exec i s') := by
  cases i
  case ret => exact h.ret
  case call nnn => exact h.call nnn
  case ldVxK x => exact h.ldVxK x
  all_goals obtain ⟨c, k, rfl, hc, hk, hu⟩ := id h
  case ldStVx x => exact .next ⟨s.getV x, k, rfl, .inr rfl, hk, hu⟩
  case seImm | sneImm | seReg | sneReg | skp | sknp => exact .next (h.skipIf _)
  case drw | ldB =>
    refine Alike.withRange h ?_ _
    exact ⟨c, k, rfl, hc, hk, hu⟩
  case ldMemVx x =>
    refine Alike.withRange h (Alike.advanceI ?_ x) _
    exact ⟨c, k, rfl, hc, hk, hu⟩
  case ldVxMem x => exact Alike.withRange h ((h.loadRegisters x).advanceI x) _
  all_goals exact .next ⟨c, k, rfl, hc, hk, hu⟩

theorem Alike.cycle (h : Alike sound dead s s') : RelatedResults (Alike sound dead) (cycle s) (cycle s') := by
  obtain ⟨c, k, rfl, hc⟩ := h
  have hbegin : Alike sound dead (beginCycle s) (beginCycle (s.swap c k)) := ⟨c, k, rfl, hc⟩
  have hfetch : Alike sound dead ((beginCycle s).setPc (s.pc + 2)) ((beginCycle (s.swap c k)).setPc (s.pc + 2)) :=
    ⟨c, k, rfl, hc⟩
  exact .ite (.next (hbegin.takeFault _ _ _)) (hfetch.exec _)

theorem Alike.corePass (h : Alike sound dead s s') : RelatedResults (Alike sound dead) (corePass s) (corePass s') := by
  obtain ⟨c, k, rfl, hc⟩ := id h
  have hdue : Alike sound dead s.advanceDue (s.swap c k).advanceDue := ⟨c, k, rfl, hc⟩
  exact .ite (.next h) (.ite (.refused _) (.ite (.ite (.next hdue) hdue.cycle) (.next h)))

theorem Alike.waitDue (h : Alike sound dead s s') : Alike sound dead s.waitDue s'.waitDue := by
  obtain ⟨c, k, rfl, hc⟩ := h
  have e : (s.swap c k).waitDue = s.waitDue.swap c k := by
    simp only [State.waitDue, apply_ite (State.swap · c k)]
    rfl
  exact ⟨c, k, e, by simpa using hc⟩

theorem Alike.agentStep (h : Alike sound dead s s') (a : AgentStep) :
    RelatedResults (Alike sound dead) (agentStep a s) (agentStep a s') := by
  obtain ⟨c, k, rfl, hc, hk, hu⟩ := id h
  cases a with
  | corePass => exact h.corePass
  | tick => exact .ite (.next h) (.next ⟨countDown c, k, rfl, hc.imp_right (congrArg countDown), hk, hu⟩)
  | keys kd lk => exact .ite (.ite (.next h) (.next ⟨c, k, rfl, hc, hk, hu⟩)) (.refused _)
  | elapse m d => exact .ite (.next h) (.next ⟨c, k, rfl, hc, hk, hu⟩)
  | quit => exact .next ⟨c, k, rfl, hc, hk, hu⟩
  | reset rom record => exact .ite (.refused _) (.next (.refl _))

/-- Steps from alike states answer alike. -/
theorem Alike.step (h : Alike sound dead s s') : RelatedResults (Alike sound dead) (step s) (step s') := by
  obtain ⟨c, k, rfl, hc⟩ := id h
  cases hs : s.schedule with
  | nil =>
    simp only [Machine.step, State.swap_schedule, hs]
    exact h.waitDue.corePass
  | cons a rest =>
    simp only [Machine.step, State.swap_schedule, hs]
    have hrest : Alike sound dead { s with schedule := rest } { s.swap c k with schedule := rest } := ⟨c, k, rfl, hc⟩
    exact hrest.agentStep a

/-! ### The two statements -/

theorem RelatedResults.of_next {R : State → State → Prop} {t : State} {r : Result} (h : RelatedResults R (.next t) r) :
    ∃ t', r = .next t' ∧ R t t' := by
  cases h with
  | next h => exact ⟨_, rfl, h⟩

theorem RelatedResults.of_refused {R : State → State → Prop} {r : Refusal} {r' : Result}
    (h : RelatedResults R (.refused r) r') : r' = .refused r := by
  cases h with
  | refused => rfl

/-- Settles O58: states alike but for ST answer alike. -/
theorem soundTimerInfluencesNothing : Obligations.SoundTimerInfluencesNothing := by
  intro s b
  have h : RelatedResults (Alike True False) (step s) (step { s with st := b }) :=
    Alike.step ⟨b, s.stack, rfl, .inl trivial, .inr rfl, fun _ _ => rfl⟩
  refine ⟨fun t ht => ?_, fun r hr => (hr ▸ h).of_refused⟩
  obtain ⟨t', ht', c, k, rfl, -, hk, -⟩ := (ht ▸ h).of_next
  exact ⟨c, by rw [ht', hk.resolve_left id]; rfl⟩

/-- Settles O59: states alike but for dead stack entries answer alike. -/
theorem deadStackEntriesAreUnobservable : Obligations.DeadStackEntriesAreUnobservable := by
  intro s k hk
  have h : RelatedResults (Alike False True) (step s) (step { s with stack := k }) :=
    Alike.step ⟨s.st, k, rfl, .inr rfl, .inl trivial, hk⟩
  refine ⟨fun t ht => ?_, fun r hr => (hr ▸ h).of_refused⟩
  obtain ⟨t', ht', c, k', rfl, hc, -, hu⟩ := (ht ▸ h).of_next
  exact ⟨k', by rw [ht', hc.resolve_left id]; rfl, hu⟩

end Sys2Proof.Machine
end

section
/-! PROOF. Memory (20_memory.md R60 to R64, R72, R74): a stored word is fetched, the canonical form of log 14 is unique, and every
step keeps it. -/

namespace Sys2Proof.Machine

/-! ### A stored word is fetched (R63, R74) -/

/-- The two bytes of a word, in memory order, make the word again. -/
theorem bytesWord_wordBytes (w : Word) : bytesWord (w.extractLsb' 8 8) (w.extractLsb' 0 8) = w := by
  rw [bytesWord, BitVec.extractLsb'_append_extractLsb'_eq_extractLsb' (start₁ := 0) (start₂ := 8) rfl]
  exact BitVec.extractLsb'_eq_self

/-- Settles O16: each of the two reads finds the byte stored there. -/
theorem storedWordIsFetched : Obligations.StoredWordIsFetched := by
  intro s a w hs ha
  have hread := State.readByte_writeBytes (bs := wordBytes w) hs (show a + 2 ≤ 0x1000 by omega)
  have hhi : (s.writeBytes a (wordBytes w)).readByte a = w.extractLsb' 8 8 := by
    rw [hread]
    simp [wordBytes]
  have hlo : (s.writeBytes a (wordBytes w)).readByte (a + 1) = w.extractLsb' 0 8 := by
    rw [hread]
    simp [wordBytes]
  rw [State.readWord, hhi, hlo, bytesWord_wordBytes]

/-! ### The canonical form is unique (log 14) -/

/-- A listed byte differs from the unlisted one, so a canonical list that reads the same cannot begin above its address. -/
theorem Memory.start_le_of_read_eq {lo start k : Nat} {b : Byte} {m m' : Memory}
    (hm : Memory.wfFrom lo ((k, b) :: m) = true) (hm' : Memory.wfFrom start m' = true)
    (h : ∀ a, Memory.read ((k, b) :: m) a = Memory.read m' a) : start ≤ k := by
  obtain ⟨-, -, hb, -⟩ := (Memory.wfFrom_cons lo k b m).mp hm
  refine Nat.le_of_not_lt fun hk => hb ?_
  calc b = Memory.read ((k, b) :: m) k := by rw [Memory.read_cons, if_pos rfl]
    _ = Memory.read m' k := h k
    _ = Memory.initial k := Memory.read_below hm' hk

/-- Memories with the same first cell that read the same have tails that read the same. -/
theorem Memory.read_tail_eq {k : Nat} {b : Byte} {m m' : Memory} (hm : Memory.wfFrom (k + 1) m = true)
    (hm' : Memory.wfFrom (k + 1) m' = true) (h : ∀ a, Memory.read ((k, b) :: m) a = Memory.read ((k, b) :: m') a) (a : Nat) :
    Memory.read m a = Memory.read m' a := by
  by_cases hk : k = a
  · rw [Memory.read_below hm (by omega), Memory.read_below hm' (by omega)]
  · have ha := h a
    rwa [Memory.read_cons, Memory.read_cons, if_neg hk, if_neg hk] at ha

/-- Sorted lists of the cells that differ from the unlisted bytes are equal when they read the same. -/
theorem Memory.eq_of_read_eq {lo lo' : Nat} {m m' : Memory} (hm : Memory.wfFrom lo m = true)
    (hm' : Memory.wfFrom lo' m' = true) (h : ∀ a, Memory.read m a = Memory.read m' a) : m = m' := by
  induction m generalizing lo lo' m' with
  | nil =>
    cases m' with
    | nil => rfl
    | cons c' m' => exact absurd (Memory.start_le_of_read_eq (start := c'.1 + 1) hm' rfl fun a => (h a).symm) (by omega)
  | cons c m ih =>
    obtain ⟨k, b⟩ := c
    cases m' with
    | nil => exact absurd (Memory.start_le_of_read_eq (start := k + 1) hm rfl h) (by omega)
    | cons c' m' =>
      obtain ⟨k', b'⟩ := c'
      obtain ⟨-, hk, hb, htail⟩ := (Memory.wfFrom_cons lo k b m).mp hm
      obtain ⟨-, hk', hb', htail'⟩ := (Memory.wfFrom_cons lo' k' b' m').mp hm'
      obtain rfl : k = k' := Nat.le_antisymm
        (Memory.start_le_of_read_eq hm' ((Memory.wfFrom_cons k k b m).mpr ⟨Nat.le_refl k, hk, hb, htail⟩) fun a => (h a).symm)
        (Memory.start_le_of_read_eq hm ((Memory.wfFrom_cons k' k' b' m').mpr ⟨Nat.le_refl k', hk', hb', htail'⟩) h)
      obtain rfl : b = b' := by simpa [Memory.read_cons] using h k
      rw [ih htail htail' (Memory.read_tail_eq htail htail' h)]

/-- Settles O17: the case of lists that start anywhere from address 0. -/
theorem canonicalMemoryIsUnique : Obligations.CanonicalMemoryIsUnique :=
  fun _ _ => Memory.eq_of_read_eq

/-! ### Every step keeps the canonical form (R60, R62, R72) -/

theorem MemoryCanonical.of_kept {s t : State} (hs : MemoryCanonical s) (hk : StatePart.memory.Kept s t) :
    MemoryCanonical t := by
  unfold MemoryCanonical
  rwa [show t.mem = s.mem from hk]

theorem MemoryCanonical.writeBytes {s : State} (hs : MemoryCanonical s) (a : Nat) (bs : List Byte) :
    MemoryCanonical (s.writeBytes a bs) :=
  Memory.wf_writeBytes hs a bs

/-- A transfer whose effect keeps the canonical form keeps it: its fault touches the latch alone. -/
theorem MemoryCanonical.transfer {n : Nat} {s k t : State} (hs : MemoryCanonical s) (hk : MemoryCanonical k)
    (h : RangeLeads n s k t) : MemoryCanonical t := by
  obtain ⟨-, rfl⟩ | ⟨-, -, rfl⟩ := h
  · exact hk
  · exact hs.of_kept (kept_takeFault _ _ _ s nofun)

/-- FX33 and FX55 store runs of bytes; no other instruction writes memory (R39, R72). -/
theorem MemoryCanonical.exec {i : Instr} {s t : State} (hs : MemoryCanonical s) (h : exec i s = .next t) :
    MemoryCanonical t := by
  have hl := exec_leads h
  cases i
  case ldB x => exact hs.transfer (hs.writeBytes _ _) hl
  case ldMemVx x => exact hs.transfer ((hs.writeBytes _ _).of_kept (kept_advanceI x _ nofun)) hl
  all_goals exact hs.of_kept (exec_keeps h (by simp [StatePart.Writer]))

theorem MemoryCanonical.cycle {u t : State} (hu : MemoryCanonical u) (h : CycleLeads u t) : MemoryCanonical t := by
  obtain ⟨-, rfl⟩ | ⟨-, h⟩ := h
  · exact MemoryCanonical.of_kept (s := beginCycle u) hu (kept_takeFault _ _ _ _ nofun)
  · exact MemoryCanonical.exec (s := (beginCycle u).setPc (u.pc + 2)) hu h

/-- Settles O52: a cycle keeps the canonical form, and no other agent but a reset writes memory. -/
theorem memoryStaysCanonical : Obligations.MemoryStaysCanonical := by
  intro s t hs h
  refine step_preserves (Inv := MemoryCanonical) (fun ho hs => ?_) (fun _ hu hc => hu.cycle hc)
    (fun rom cfg s _ => memoryCanonical_powerOn s.par cfg rom) hs h
  rw [ho]
  exact hs

end Sys2Proof.Machine
end

section
/-! PROOF. Encoding (30_encoding.md R91 to R108): decoding and encoding are inverse to each other, the decoder follows the opcode
map, and the unknown words are the four spaces of R101. -/

namespace Sys2Proof

/-! ### A word from its fields, in each format (R91, R92) -/

theorem append_fieldNNN {w : Word} {op : Nibble} (hop : fieldOP w = op) : op ++ fieldNNN w = w := by
  rw [← hop, fieldOP, fieldNNN, BitVec.extractLsb'_append_extractLsb'_eq_extractLsb' (start₁ := 0) (start₂ := 12) rfl]
  exact BitVec.extractLsb'_eq_self

theorem append_fieldX_append {w : Word} {op : Nibble} {nn : Byte} (hop : fieldOP w = op) (hnn : fieldNN w = nn) :
    op ++ fieldX w ++ nn = w := by
  rw [← hop, ← hnn, fieldOP, fieldX, BitVec.extractLsb'_append_extractLsb'_eq_extractLsb' (start₁ := 8) (start₂ := 12) rfl]
  exact Machine.bytesWord_wordBytes w

theorem append_fieldX_append_fieldY_append {w : Word} {op n : Nibble} (hop : fieldOP w = op) (hn : fieldN w = n) :
    op ++ fieldX w ++ fieldY w ++ n = w := by
  rw [← hop, ← hn, fieldOP, fieldX, fieldY, fieldN,
    BitVec.extractLsb'_append_extractLsb'_eq_extractLsb' (start₁ := 8) (start₂ := 12) rfl,
    BitVec.extractLsb'_append_extractLsb'_eq_extractLsb' (start₁ := 4) (start₂ := 8) rfl,
    BitVec.extractLsb'_append_extractLsb'_eq_extractLsb' (start₁ := 0) (start₂ := 4) rfl]
  exact BitVec.extractLsb'_eq_self

/-! ### The four spaces of unknown words (R101) -/

theorem isUnknownWord_iff (w : Word) :
    isUnknownWord w = true ↔
      (fieldOP w = 0x0#4 ∧ w ≠ 0x00E0#16 ∧ w ≠ 0x00EE#16) ∨
      (fieldOP w = 0x8#4 ∧ fieldN w ∈ [0x8#4, 0x9#4, 0xA#4, 0xB#4, 0xC#4, 0xD#4, 0xF#4]) ∨
      (fieldOP w = 0xE#4 ∧ fieldNN w ∉ [0x9E#8, 0xA1#8]) ∨
      (fieldOP w = 0xF#4 ∧
        fieldNN w ∉ [0x07#8, 0x0A#8, 0x15#8, 0x18#8, 0x1E#8, 0x29#8, 0x33#8, 0x55#8, 0x65#8]) := by
  simp [isUnknownWord, fieldOP, fieldN, fieldNN, or_assoc, and_assoc]

theorem decode_of_isUnknownWord {w : Word} (h : isUnknownWord w = true) : decode w = .unknown w := by
  obtain ⟨hop, h⟩ | ⟨hop, h⟩ | ⟨hop, h⟩ | ⟨hop, h⟩ := (isUnknownWord_iff w).mp h
  · simp [decode, hop, decodeClass0, h]
  · simp only [List.mem_cons, List.not_mem_nil, or_false] at h
    obtain hn | hn | hn | hn | hn | hn | hn := h <;> simp [decode, hop, decodeClass8, hn]
  · simp only [List.mem_cons, List.not_mem_nil, or_false, not_or] at h
    simp [decode, hop, decodeClassE, h]
  · simp only [List.mem_cons, List.not_mem_nil, or_false, not_or] at h
    simp [decode, hop, decodeClassF, h]

/-! ### Decoding an encoded instruction -/

theorem decode_encode {i : Instr} (hi : i.wellFormed = true) : decode (encode i) = i := by
  cases i
  case cls | ret => rfl
  case jp | call | ldI | jpV0 => simp [encode, decode, fieldOP_nnn, fieldNNN_nnn]
  case seImm | sneImm | ldImm | addImm | rnd => simp [encode, decode, fieldOP_xnn, fieldX_xnn, fieldNN_xnn]
  case seReg | sneReg | drw => simp [encode, decode, fieldOP_xyn, fieldX_xyn, fieldY_xyn, fieldN_xyn]
  case ldReg | orReg | andReg | xorReg | addReg | subReg | shr | subnReg | shl =>
    simp [encode, decode, decodeClass8, fieldOP_xyn, fieldX_xyn, fieldY_xyn, fieldN_xyn]
  case skp | sknp => simp [encode, decode, decodeClassE, fieldOP_xnn, fieldX_xnn, fieldNN_xnn]
  case unknown w => exact decode_of_isUnknownWord hi
  all_goals simp [encode, decode, decodeClassF, fieldOP_xnn, fieldX_xnn, fieldNN_xnn]

/-- Settles O2: the fields of an encoded instruction are its operands, and the two bytes of a word make it again. -/
theorem decodeAfterEncode : Obligations.DecodeAfterEncode := by
  intro i hi
  refine ⟨decode_encode hi, fun rest => ?_⟩
  rw [wordBytes, List.cons_append, List.cons_append, decodeBytes, Machine.bytesWord_wordBytes, decode_encode hi]
  rfl

/-! ### Encoding a decoded word -/

/-- `i` is a well-formed instruction whose word is `w`. -/
def Instr.Denotes (i : Instr) (w : Word) : Prop :=
  i.wellFormed = true ∧ encode i = w

theorem decodeClass0_denotes {w : Word} (hop : fieldOP w = 0x0#4) : (decodeClass0 w).Denotes w := by
  unfold decodeClass0
  split_ifs with hcls hret
  · exact ⟨rfl, hcls.symm⟩
  · exact ⟨rfl, hret.symm⟩
  · exact ⟨(isUnknownWord_iff w).mpr (.inl ⟨hop, hcls, hret⟩), rfl⟩

theorem decodeClass8_denotes {w : Word} (hop : fieldOP w = 0x8#4) : (decodeClass8 w).Denotes w := by
  unfold decodeClass8
  split_ifs
  case neg =>
    refine ⟨(isUnknownWord_iff w).mpr (.inr (.inl ⟨hop, ?_⟩)), rfl⟩
    generalize fieldN w = n at *
    decide +revert
  all_goals exact ⟨rfl, append_fieldX_append_fieldY_append hop ‹fieldN w = _›⟩

theorem decodeClassE_denotes {w : Word} (hop : fieldOP w = 0xE#4) : (decodeClassE w).Denotes w := by
  unfold decodeClassE
  split_ifs
  case neg => exact ⟨(isUnknownWord_iff w).mpr (.inr (.inr (.inl ⟨hop, by simp [*]⟩))), rfl⟩
  all_goals exact ⟨rfl, append_fieldX_append hop ‹fieldNN w = _›⟩

theorem decodeClassF_denotes {w : Word} (hop : fieldOP w = 0xF#4) : (decodeClassF w).Denotes w := by
  unfold decodeClassF
  split_ifs
  case neg => exact ⟨(isUnknownWord_iff w).mpr (.inr (.inr (.inr ⟨hop, by simp [*]⟩))), rfl⟩
  all_goals exact ⟨rfl, append_fieldX_append hop ‹fieldNN w = _›⟩

theorem Instr.Denotes.ite {c : Prop} [Decidable c] {i j : Instr} {w : Word} (hi : c → i.Denotes w) (hj : ¬ c → j.Denotes w) :
    (if c then i else j).Denotes w :=
  iteInduction (motive := (Instr.Denotes · w)) hi hj

theorem decode_denotes (w : Word) : (decode w).Denotes w := by
  unfold decode
  refine .ite decodeClass0_denotes fun h0 => ?_
  refine .ite (fun h => ⟨rfl, append_fieldNNN h⟩) fun h1 => ?_
  refine .ite (fun h => ⟨rfl, append_fieldNNN h⟩) fun h2 => ?_
  refine .ite (fun h => ⟨rfl, append_fieldX_append h rfl⟩) fun h3 => ?_
  refine .ite (fun h => ⟨rfl, append_fieldX_append h rfl⟩) fun h4 => ?_
  refine .ite (fun h => ⟨rfl, append_fieldX_append_fieldY_append h rfl⟩) fun h5 => ?_
  refine .ite (fun h => ⟨rfl, append_fieldX_append h rfl⟩) fun h6 => ?_
  refine .ite (fun h => ⟨rfl, append_fieldX_append h rfl⟩) fun h7 => ?_
  refine .ite decodeClass8_denotes fun h8 => ?_
  refine .ite (fun h => ⟨rfl, append_fieldX_append_fieldY_append h rfl⟩) fun h9 => ?_
  refine .ite (fun h => ⟨rfl, append_fieldNNN h⟩) fun hA => ?_
  refine .ite (fun h => ⟨rfl, append_fieldNNN h⟩) fun hB => ?_
  refine .ite (fun h => ⟨rfl, append_fieldX_append h rfl⟩) fun hC => ?_
  refine .ite (fun h => ⟨rfl, append_fieldX_append_fieldY_append h rfl⟩) fun hD => ?_
  refine .ite decodeClassE_denotes fun hE => ?_
  have hF : fieldOP w = 0xF#4 := by bv_omega
  exact decodeClassF_denotes hF

/-- Settles O3: class by class, the decoded instruction keeps every field of the word. -/
theorem encodeAfterDecode : Obligations.EncodeAfterDecode :=
  decode_denotes

/-! ### Unknown instructions (R101, log 22) -/

theorem eq_of_decode_eq_unknown {w u : Word} (h : decode w = .unknown u) : u = w := by
  have hw := (decode_denotes w).2
  rwa [h] at hw

theorem decode_eq_unknown_iff (w : Word) : (∃ u, decode w = .unknown u) ↔ isUnknownWord w = true := by
  refine ⟨fun ⟨u, hu⟩ => ?_, fun h => ⟨w, decode_of_isUnknownWord h⟩⟩
  have hw := (decode_denotes w).1
  rw [hu] at hw
  rwa [← eq_of_decode_eq_unknown hu]

/-- Settles O5: an instruction that a word decodes to is well-formed and carries the word. -/
theorem unknownWordsAreFourSpaces : Obligations.UnknownWordsAreFourSpaces :=
  fun w => ⟨(decode_eq_unknown_iff w).trans (isUnknownWord_iff w), fun _ => eq_of_decode_eq_unknown⟩

/-! ### Fields that a mask holds -/

theorem extractLsb'_eq_of_and_eq {w mask m : Word} {start len : Nat} (hmask : mask.extractLsb' start len = BitVec.allOnes len)
    (hw : w &&& mask = m) : w.extractLsb' start len = m.extractLsb' start len := by
  rw [← hw, BitVec.extractLsb'_and, hmask, BitVec.and_allOnes]

/-! ### The row of a decoded word depends on the class and its sub-key alone (R94 to R98) -/

theorem row_decodeClass8_congr {w m : Word} (hn : fieldN w = fieldN m) : (decodeClass8 w).row = (decodeClass8 m).row := by
  simp only [decodeClass8, hn, apply_ite Instr.row]
  rfl

theorem row_decodeClassE_congr {w m : Word} (hnn : fieldNN w = fieldNN m) : (decodeClassE w).row = (decodeClassE m).row := by
  simp only [decodeClassE, hnn, apply_ite Instr.row]
  rfl

theorem row_decodeClassF_congr {w m : Word} (hnn : fieldNN w = fieldNN m) : (decodeClassF w).row = (decodeClassF m).row := by
  simp only [decodeClassF, hnn, apply_ite Instr.row]
  rfl

/-- `w` and `m` agree in the bits that select the row: the class, and the whole word in class 0, `N` in class 8, `NN` in the
classes E and F. -/
def SameKey (w m : Word) : Prop :=
  fieldOP w = fieldOP m ∧ (fieldOP m = 0x0#4 → w = m) ∧ (fieldOP m = 0x8#4 → fieldN w = fieldN m) ∧
  (fieldOP m = 0xE#4 ∨ fieldOP m = 0xF#4 → fieldNN w = fieldNN m)

theorem SameKey.row_decode_eq {w m : Word} (h : SameKey w m) : (decode w).row = (decode m).row := by
  obtain ⟨hop, h0, h8, hEF⟩ := h
  simp only [decode, hop, apply_ite Instr.row]
  refine ite_congr rfl (fun h => by rw [h0 h]) fun _ => ?_
  iterate 7 refine ite_congr rfl (fun _ => rfl) fun _ => ?_
  refine ite_congr rfl (fun h => row_decodeClass8_congr (h8 h)) fun _ => ?_
  iterate 5 refine ite_congr rfl (fun _ => rfl) fun _ => ?_
  refine ite_congr rfl (fun h => row_decodeClassE_congr (hEF (.inl h))) fun _ => ?_
  exact row_decodeClassF_congr (hEF (.inr (by bv_omega)))

/-! ### The opcode map (R106) -/

/-- Row `k` of the opcode map: its match is a word of row `k`, and its mask holds the bits that select the row of that word. -/
def RowSelects (k : Nat) (r : Word × Word) : Prop :=
  (decode r.1).row = k ∧ fieldOP r.2 = 0xF#4 ∧ (fieldOP r.1 = 0x0#4 → r.2 = 0xFFFF#16) ∧
  (fieldOP r.1 = 0x8#4 → fieldN r.2 = 0xF#4) ∧ (fieldOP r.1 = 0xE#4 ∨ fieldOP r.1 = 0xF#4 → fieldNN r.2 = 0xFF#8)

theorem opcodeMap_selects : ∀ (k : Nat) (hk : k < opcodeMap.length), RowSelects k opcodeMap[k] := by
  unfold RowSelects
  decide

theorem row_decode_of_matches {k : Nat} {r : Word × Word} {w : Word} (hk : opcodeMap[k]? = some r) (hw : w &&& r.2 = r.1) :
    (decode w).row = k := by
  obtain ⟨hlt, rfl⟩ := List.getElem?_eq_some_iff.mp hk
  obtain ⟨hrow, hop, h0, h8, hEF⟩ := opcodeMap_selects k hlt
  have hkey : SameKey w opcodeMap[k].1 :=
    ⟨extractLsb'_eq_of_and_eq hop hw,
      fun h => by rwa [h0 h, show 0xFFFF#16 = BitVec.allOnes 16 from rfl, BitVec.and_allOnes] at hw,
      fun h => extractLsb'_eq_of_and_eq (h8 h) hw, fun h => extractLsb'_eq_of_and_eq (hEF h) hw⟩
  exact hkey.row_decode_eq.trans hrow

/-- The word of an instruction matches the row of the instruction, whatever the constructor. -/
theorem encodesRow : (i : Instr) → Laws.EncodesRow.Statement i
  | .cls => Laws.EncodesRow.cls
  | .ret => Laws.EncodesRow.ret
  | .jp nnn => Laws.EncodesRow.jp nnn
  | .call nnn => Laws.EncodesRow.call nnn
  | .seImm x nn => Laws.EncodesRow.seImm x nn
  | .sneImm x nn => Laws.EncodesRow.sneImm x nn
  | .seReg x y n => Laws.EncodesRow.seReg x y n
  | .ldImm x nn => Laws.EncodesRow.ldImm x nn
  | .addImm x nn => Laws.EncodesRow.addImm x nn
  | .ldReg x y => Laws.EncodesRow.ldReg x y
  | .orReg x y => Laws.EncodesRow.orReg x y
  | .andReg x y => Laws.EncodesRow.andReg x y
  | .xorReg x y => Laws.EncodesRow.xorReg x y
  | .addReg x y => Laws.EncodesRow.addReg x y
  | .subReg x y => Laws.EncodesRow.subReg x y
  | .shr x y => Laws.EncodesRow.shr x y
  | .subnReg x y => Laws.EncodesRow.subnReg x y
  | .shl x y => Laws.EncodesRow.shl x y
  | .sneReg x y n => Laws.EncodesRow.sneReg x y n
  | .ldI nnn => Laws.EncodesRow.ldI nnn
  | .jpV0 nnn => Laws.EncodesRow.jpV0 nnn
  | .rnd x nn => Laws.EncodesRow.rnd x nn
  | .drw x y n => Laws.EncodesRow.drw x y n
  | .skp x => Laws.EncodesRow.skp x
  | .sknp x => Laws.EncodesRow.sknp x
  | .ldVxDt x => Laws.EncodesRow.ldVxDt x
  | .ldVxK x => Laws.EncodesRow.ldVxK x
  | .ldDtVx x => Laws.EncodesRow.ldDtVx x
  | .ldStVx x => Laws.EncodesRow.ldStVx x
  | .addI x => Laws.EncodesRow.addI x
  | .ldF x => Laws.EncodesRow.ldF x
  | .ldB x => Laws.EncodesRow.ldB x
  | .ldMemVx x => Laws.EncodesRow.ldMemVx x
  | .ldVxMem x => Laws.EncodesRow.ldVxMem x
  | .unknown w => Laws.EncodesRow.unknown w

theorem matches_of_row_decode {k : Nat} {r : Word × Word} {w : Word} (hk : opcodeMap[k]? = some r) (hrow : (decode w).row = k) :
    w &&& r.2 = r.1 := by
  obtain ⟨hwf, hw⟩ := decode_denotes w
  have h := encodesRow (decode w) hwf
  rwa [hrow, hk, hw] at h

theorem Instr.row_lt_or_eq_unknown (i : Instr) : i.row < opcodeMap.length ∨ ∃ w, i = .unknown w := by
  rw [show opcodeMap.length = 34 from rfl]
  cases i
  case unknown w => exact .inr ⟨w, rfl⟩
  all_goals exact .inl (by simp [row])

/-- Settles O4: a word matches exactly the row of its instruction, so no two rows, and none when the instruction is unknown. -/
theorem decoderFollowsOpcodeMap : Obligations.DecoderFollowsOpcodeMap := by
  refine ⟨rfl, fun w => ⟨fun k r hk => ⟨row_decode_of_matches hk, matches_of_row_decode hk⟩,
    ⟨fun hnone => ?_, fun hu r hr hw => ?_⟩,
    fun j k r q hj hk hr hq => (row_decode_of_matches hj hr).symm.trans (row_decode_of_matches hk hq)⟩⟩
  · obtain hrow | ⟨u, hu⟩ := (decode w).row_lt_or_eq_unknown
    · have hk := List.getElem?_eq_getElem hrow
      exact absurd (matches_of_row_decode hk rfl) (hnone _ (List.mem_of_getElem? hk))
    · rw [hu, eq_of_decode_eq_unknown hu]
  · obtain ⟨k, hk⟩ := List.mem_iff_getElem?.mp hr
    have hrow := row_decode_of_matches hk hw
    rw [hu] at hrow
    subst hrow
    exact nomatch (hk : none = some r)

/-- Settles O1: the six words of R108 are closed, and the decoder runs on each. -/
theorem workedWordsDecode : Obligations.WorkedWordsDecode := by
  unfold Obligations.WorkedWordsDecode
  decide

end Sys2Proof
end

section
/-! SUPPORT. A step as an equation: which agent moves, and what a pass of the core answers in each of its cases (40_cycle.md R121,
R125, R129). -/

namespace Sys2Proof.Machine

/-! ### Who moves -/

theorem step_of_schedule {s : State} {a : AgentStep} {rest : List AgentStep} (hs : s.schedule = a :: rest) :
    step s = agentStep a { s with schedule := rest } := by
  rw [step, hs]

theorem step_of_schedule_nil {s : State} (hs : s.schedule = []) : step s = corePass s.waitDue := by
  rw [step, hs]

/-! ### A pass of the core -/

theorem State.isDue_iff (s : State) : s.isDue = true ↔ s.nextDue * (s.now.denPred + 1) ≤ s.now.num * s.cfg.ips :=
  decide_eq_true_iff

theorem State.waitDue_of_quit {s : State} (hq : s.quit = true) : s.waitDue = s := by
  simp [State.waitDue, hq]

theorem corePass_of_quit {u : State} (hq : u.quit = true) : corePass u = .next u :=
  if_pos hq

theorem corePass_of_not_due {u : State} (hi : 1 ≤ u.cfg.ips) (hd : ¬ u.isDue = true) : corePass u = .next u := by
  rw [corePass, if_neg (Nat.ne_of_gt hi), if_neg hd, ite_self]

/-- Before `quit`, over a legal configuration, with a cycle due: a halted core lets the period go by, another runs its cycle. -/
theorem corePass_of_due {u : State} (hq : u.quit = false) (hi : 1 ≤ u.cfg.ips) (hd : u.isDue = true) :
    corePass u = if u.halted then .next u.advanceDue else cycle u.advanceDue := by
  rw [corePass, if_neg (Bool.eq_false_iff.mp hq), if_neg (Nat.ne_of_gt hi), if_pos hd]

theorem corePass_of_halted {u : State} (hq : u.quit = false) (hi : 1 ≤ u.cfg.ips) (hd : u.isDue = true)
    (hh : u.halted = true) : corePass u = .next u.advanceDue := by
  rw [corePass_of_due hq hi hd, if_pos hh]

theorem corePass_of_running {u : State} (hq : u.quit = false) (hi : 1 ≤ u.cfg.ips) (hd : u.isDue = true)
    (hh : u.halted = false) : corePass u = cycle u.advanceDue := by
  rw [corePass_of_due hq hi hd, if_neg (Bool.eq_false_iff.mp hh)]

/-- A running core with an empty schedule runs one cycle, once time has passed until it is due (logs 5, 6). -/
theorem CoreRuns.step_eq_cycle {s : State} (h : CoreRuns s) : step s = cycle s.waitDue.advanceDue := by
  obtain ⟨hs, hq, hi, hh⟩ := h
  rw [step_of_schedule_nil hs]
  exact corePass_of_running (by rwa [State.waitDue_quit]) (by rwa [State.waitDue_cfg]) (State.isDue_waitDue hi hq)
    (by rwa [State.waitDue_halted])

/-! ### The cycle -/

theorem cycle_of_pc_le {u : State} (hp : u.pc.toNat ≤ 0xFFE) :
    cycle u = exec (decode (u.readWord u.pc.toNat)) { u with redraw := false, outcome := .ok, pc := u.pc + 2 } :=
  if_neg (Nat.not_lt.mpr hp)

theorem cycle_of_lt_pc {u : State} (hp : 0xFFE < u.pc.toNat) :
    cycle u = .next (takeFault .endOfMemory u.pc 0 (beginCycle u)) :=
  if_pos hp

end Sys2Proof.Machine
end

section
/-! PROOF. The cycle and the passes that run none (40_cycle.md R121, R122, R125, R129, R130). -/

namespace Sys2Proof.Machine

/-- Settles O6: an empty schedule and a scheduled pass come to the same cycle, and waiting changes the time alone. -/
theorem stepRunsDecodedInstruction : Obligations.StepRunsDecodedInstruction := by
  refine ⟨fun s hc hp => ?_, fun s rest hs hq hi hh hd hp => ?_, State.toNat_readWord⟩
  · rw [hc.step_eq_cycle]
    obtain ⟨now, hw⟩ : ∃ now, s.waitDue = { s with now := now } := ⟨_, s.waitDue_eq⟩
    rw [hw]
    exact cycle_of_pc_le hp
  · have hpass := corePass_of_running (u := { s with schedule := rest }) hq hi ((State.isDue_iff _).mpr hd) hh
    rw [step_of_schedule hs, agentStep, hpass]
    exact cycle_of_pc_le hp

/-- Settles O8: each clause is one case of a pass. -/
theorem passesThatRunNoCycle : Obligations.PassesThatRunNoCycle := by
  refine ⟨fun s rest hs hi hd => ?_, fun s rest hs hq => ?_, fun s hs hq => ?_, fun s hs hq hi hh => ?_,
    fun s rest hs hq hi hh hd => ?_⟩
  · rw [step_of_schedule hs]
    exact corePass_of_not_due hi (mt (State.isDue_iff _).mp (Nat.not_le.mpr hd))
  · rw [step_of_schedule hs]
    exact corePass_of_quit hq
  · rw [step_of_schedule_nil hs, State.waitDue_of_quit hq]
    exact corePass_of_quit hq
  · rw [step_of_schedule_nil hs, corePass_of_halted (by rwa [State.waitDue_quit]) (by rwa [State.waitDue_cfg])
      (State.isDue_waitDue hi hq) (by rwa [State.waitDue_halted]), State.advanceDue, State.waitDue_nextDue]
  · rw [step_of_schedule hs]
    exact corePass_of_halted hq hi ((State.isDue_iff _).mpr hd) hh

end Sys2Proof.Machine
end

section
/-! PROOF. The redraw strobe (40_cycle.md R126, 45_display.md R227; decision D26). -/

namespace Sys2Proof.Machine

/-- From a lowered strobe and outcome Ok, as the fetch leaves them: the strobe rises exactly for 00E0 and for a DXYN that does not
fault, and the frame handed over is then the framebuffer. -/
theorem exec_redraw {i : Instr} {s t : State} (h : exec i s = .next t) (hr : s.redraw = false) (ho : s.outcome = .ok) :
    (t.redraw = true ↔ (i = .cls ∨ ∃ x y n, i = .drw x y n) ∧ t.outcome = .ok) ∧
      (t.redraw = true → t.fbOut = some t.fb) := by
  by_cases hw : i = .cls ∨ ∃ x y n, i = .drw x y n
  · obtain rfl | ⟨x, y, n, rfl⟩ := id hw
    · obtain rfl := exec_leads h
      simp [ho]
    · obtain ⟨-, rfl⟩ | ⟨-, -, rfl⟩ := exec_leads h
      · rw [drawSprite_frame]
        simp [ho]
      · simp [raise, hr]
  · obtain ⟨-, hk, -⟩ : StatePart.display.Kept s t := exec_keeps h hw
    simp [hk, hr, hw]

/-- Settles O51: a cycle begins with the strobe lowered, and then faults at the fetch or executes. -/
theorem redrawExactlyForDisplay : Obligations.RedrawExactlyForDisplay := by
  intro s t hc h
  obtain hp | hp := Nat.lt_or_ge 0xFFE s.pc.toNat
  · rw [hc.step_eq_cycle, cycle_of_lt_pc (by simpa using hp)] at h
    obtain rfl := Host.Outcome.next.inj h
    simp [hp]
  · obtain ⟨hstep, -⟩ := stepRunsDecodedInstruction
    obtain ⟨hiff, hframe⟩ := exec_redraw ((hstep s hc hp).symm.trans h) rfl rfl
    exact ⟨fun _ => hiff, fun hp' => absurd hp' (Nat.not_lt.mpr hp), hframe⟩

end Sys2Proof.Machine
end

section
/-! PROOF. The timer and the host beside the core (40_cycle.md R127, R128, R134; 10_state.md R34, R36). -/

namespace Sys2Proof.Machine

/-! ### Timer ticks -/

/-- One count down, as a number: subtraction of naturals stops at zero as the timer does. -/
@[simp] theorem toNat_countDown (b : Byte) : (countDown b).toNat = b.toNat - 1 := by
  unfold countDown
  split
  · next h => simp [h]
  · next h => bv_omega

theorem unlessQuit_of_not_quit {s t : State} (hq : s.quit = false) : unlessQuit t s = .next t :=
  if_neg (Bool.eq_false_iff.mp hq)

theorem step_tick {s : State} {rest : List AgentStep} (hs : s.schedule = .tick :: rest) (hq : s.quit = false) :
    step s = .next (State.tick60 { s with schedule := rest }) := by
  rw [step_of_schedule hs]
  exact unlessQuit_of_not_quit hq

/-- Settles O9, by the count of one timer. -/
theorem tickCountsBothTimersDown : Obligations.TickCountsBothTimersDown :=
  fun s _ hs hq => ⟨_, step_tick hs hq, rfl, toNat_countDown s.dt, toNat_countDown s.st⟩

theorem run_succ_of_step {M : Host.Core} {s t : M.State} (h : M.step s = .next t) (n : Nat) :
    M.run (n + 1) s = M.run n t := by
  rw [Host.Core.run, h]

/-- Settles O10, by induction on the number of ticks. -/
theorem ticksReachZeroAndStay : Obligations.TicksReachZeroAndStay := by
  intro n
  induction n with
  | zero => exact fun s rest hs _ => ⟨s, rfl, by rw [← show s.schedule = rest from hs], rfl, rfl⟩
  | succ n ih =>
    intro s rest hs hq
    have hstep := step_tick (rest := List.replicate n .tick ++ rest) hs hq
    obtain ⟨t, hrun, ht, hdt, hst⟩ := ih (State.tick60 { s with schedule := _ }) rest rfl hq
    refine ⟨t, (run_succ_of_step hstep n).trans hrun, ht, ?_, ?_⟩
    · rw [hdt, State.tick60_dt, toNat_countDown, Nat.sub_sub, Nat.add_comm 1]
    · rw [hst, State.tick60_st, toNat_countDown, Nat.sub_sub, Nat.add_comm 1]

/-! ### The host -/

/-- The sum of two numbers of seconds, with the denominators multiplied out. -/
theorem Instant.add_value (a : Instant) (m d : Nat) :
    (a.add m d).num * ((a.denPred + 1) * (d + 1)) = (a.num * (d + 1) + m * (a.denPred + 1)) * ((a.add m d).denPred + 1) := by
  rw [Instant.add, Nat.sub_add_cancel (Nat.mul_pos (Nat.succ_pos _) (Nat.succ_pos _))]

/-- Settles O11: each host step is one arm of the agents' step. -/
theorem hostTouchesInputsAlone : Obligations.HostTouchesInputsAlone := by
  refine ⟨fun s kd lk rest hs => ⟨fun hk hq => ?_, fun hk => ?_⟩, fun s rest hs => ?_, fun s m d rest hs hq => ?_⟩
  · rw [step_of_schedule hs, agentStep, if_pos ((keysAgree_iff kd lk).mpr hk)]
    exact unlessQuit_of_not_quit hq
  · rw [step_of_schedule hs]
    exact if_neg (mt (keysAgree_iff kd lk).mp hk)
  · exact step_of_schedule hs
  · refine ⟨{ s with schedule := rest, now := s.now.add m d }, ?_, rfl, s.now.add_value m d⟩
    rw [step_of_schedule hs]
    exact unlessQuit_of_not_quit hq

/-! ### The key contract -/

/-- A pass of the core, whatever it runs, leaves the key inputs (R34). -/
theorem PassLeads.keeps_keys {u t : State} (h : PassLeads u t) : t.keyDown = u.keyDown ∧ t.lastKey = u.lastKey := by
  obtain rfl | ⟨-, rfl⟩ | ⟨-, -, rfl⟩ | ⟨-, -, h⟩ := h
  · exact ⟨rfl, rfl⟩
  · exact ⟨rfl, rfl⟩
  · exact ⟨takeFault_keyDown _ _ _ _, takeFault_lastKey _ _ _ _⟩
  · obtain ⟨-, -, hkd, hlk, -⟩ : StatePart.fixed.Kept _ t := exec_keeps h id
    exact ⟨hkd, hlk⟩

/-- The contract speaks of the key inputs alone. -/
theorem KeyContract.of_keys {s t : State} (hs : KeyContract s) (hk : t.keyDown = s.keyDown ∧ t.lastKey = s.lastKey) :
    KeyContract t := by
  obtain ⟨hkd, hlk⟩ := hk
  unfold KeyContract
  rwa [hkd, hlk]

/-- Settles O60: only a key step moves the key inputs, and it is answered only for a pair that meets the contract. -/
theorem keyContractStays : Obligations.KeyContractStays := by
  intro s t hs h
  obtain hp | ⟨rest, hp | rfl | rfl | ⟨kd, lk, hk, rfl⟩ | ⟨m, d, rfl⟩ | rfl | ⟨rom, record, -, -, rfl⟩⟩ := step_leads h
  · exact (hs.of_keys ⟨s.waitDue_keyDown, s.waitDue_lastKey⟩).of_keys hp.keeps_keys
  · exact hs.of_keys hp.keeps_keys
  · exact hs
  · exact hs
  · exact (keysAgree_iff kd lk).mp hk
  · exact hs
  · exact hs
  · exact hs

end Sys2Proof.Machine
end

section
/-! PROOF. Control flow: return, call and the two jumps (41_control_flow.md R150 to R153; the stack faults 60_exceptions.md R281,
R282). -/

namespace Sys2Proof.Machine

/-! ### The operands of a jump -/

@[simp] theorem toNat_addrOperand (nnn : Addr) : (addrOperand nnn).toNat = nnn.toNat :=
  BitVec.toNat_setWidth_of_le (by decide)

@[simp] theorem toNat_byteOperand (b : Byte) : (byteOperand b).toNat = b.toNat :=
  BitVec.toNat_setWidth_of_le (by decide)

/-- A 12-bit address and a byte sum without a carry out of 16 bits, so no mask is needed (decision D21). -/
theorem toNat_addrOperand_add_byteOperand (nnn : Addr) (b : Byte) :
    (addrOperand nnn + byteOperand b).toNat = nnn.toNat + b.toNat := by
  have hlt : (addrOperand nnn).toNat + (byteOperand b).toNat < 2 ^ 16 := by
    rw [toNat_addrOperand, toNat_byteOperand]
    omega
  rw [BitVec.toNat_add_of_lt hlt, toNat_addrOperand, toNat_byteOperand]

theorem jumpRegister_of_not_jumpVx {s : State} (h : s.cfg.jumpVx = false) (nnn : Addr) : jumpRegister nnn s = 0#4 :=
  if_neg (Bool.eq_false_iff.mp h)

/-- The register BNNN adds when `JUMP_VX` is the top digit of `NNN` (R153). -/
theorem jumpRegister_of_jumpVx {s : State} (h : s.cfg.jumpVx = true) (nnn : Addr) :
    jumpRegister nnn s = BitVec.ofNat 4 (nnn.toNat / 256) := by
  rw [jumpRegister, if_pos h, BitVec.extractLsb', Nat.shiftRight_eq_div_pow]

/-! ### The stack, by the number of entries in use -/

/-- The top entry is the last one in use. -/
theorem State.top_eq_getElem {s : State} {k : Fin 16} (hk : s.sp.val = k.val + 1) (h : 0 < s.sp.val) :
    s.top h = s.stack[k] := by
  simp [State.top, hk]

/-- A push writes the entry above those in use and no other. -/
theorem State.getElem_stack_push {s : State} {k : Fin 16} (hk : s.sp.val = k.val) (h : s.sp.val < 16) (w : Word) (j : Fin 16) :
    (s.push w h).stack[j] = if j = k then w else s.stack[j] := by
  by_cases hj : j = k
  · simp [hj, hk]
  · have hne : s.sp.val ≠ j.val := hk ▸ Fin.val_ne_of_ne (Ne.symm hj)
    simp [hj, Vector.getElem_set_ne, hne]

theorem exec_ret_of_pos {s : State} (h : 0 < s.sp.val) : exec .ret s = .next (s.drop.setPc (s.top h)) :=
  dif_pos h

theorem exec_ret_of_empty {s : State} (h : s.sp.val = 0) : exec .ret s = .next (raise .stackUnderflow 0 s) :=
  dif_neg (Nat.not_lt.mpr (Nat.le_of_eq h))

theorem exec_call_of_lt {s : State} (h : s.sp.val < 16) (nnn : Addr) :
    exec (.call nnn) s = .next ((s.push s.pc h).setPc (addrOperand nnn)) :=
  dif_pos h

theorem exec_call_of_full {s : State} (h : s.sp.val = 16) (nnn : Addr) :
    exec (.call nnn) s = .next (raise .stackOverflow 0 s) :=
  dif_neg (Nat.not_lt.mpr (Nat.le_of_eq h.symm))

/-- A fault raised in an instruction is the fault taken at the instruction's address (R288). -/
theorem faultTaken_raise (f : CycleOutcome) (fa : Word) (s : State) : FaultTaken f (s.pc - 2) fa s (raise f fa s) :=
  raise_frame f fa s

/-! ### The obligations -/

/-- Settles O18: with an entry in use the top one becomes `pc`; with none the fault is raised. -/
theorem returnPopsTheStack : Obligations.ReturnPopsTheStack := by
  refine fun s => ⟨fun k hk => ?_, fun hz => ⟨_, exec_ret_of_empty hz, faultTaken_raise .stackUnderflow 0 s⟩⟩
  have hpos : 0 < s.sp.val := hk ▸ Nat.succ_pos k.val
  refine ⟨_, exec_ret_of_pos hpos, ?_, ?_⟩
  · rw [← State.top_eq_getElem hk hpos]
    rfl
  · exact Nat.sub_eq_of_eq_add hk

/-- Settles O19, by the one arm of 1NNN. -/
theorem jumpSetsPc : Obligations.JumpSetsPc :=
  fun nnn s => ⟨s.setPc (addrOperand nnn), rfl, rfl, toNat_addrOperand nnn⟩

/-- Settles O20: below 16 entries the push writes entry `sp` and no other; at 16 the fault is raised. -/
theorem callPushesAndJumps : Obligations.CallPushesAndJumps := by
  refine fun nnn s => ⟨fun k hk => ?_, fun hf => ⟨_, exec_call_of_full hf nnn, faultTaken_raise .stackOverflow 0 s⟩⟩
  have hlt : s.sp.val < 16 := hk ▸ k.isLt
  exact ⟨_, exec_call_of_lt hlt nnn, rfl, toNat_addrOperand nnn, congrArg (· + 1) hk, State.getElem_stack_push hk hlt s.pc⟩

/-- Settles O21: the sum does not wrap, and the toggle chooses the register. -/
theorem jumpWithOffset : Obligations.JumpWithOffset := by
  refine fun nnn s => ⟨s.setPc (addrOperand nnn + byteOperand (s.getV (jumpRegister nnn s))), rfl, rfl,
    fun h => ?_, fun h => ?_⟩
  · rw [State.setPc_pc, toNat_addrOperand_add_byteOperand, jumpRegister_of_not_jumpVx h]
  · rw [State.setPc_pc, toNat_addrOperand_add_byteOperand, jumpRegister_of_jumpVx h]

end Sys2Proof.Machine
end

section
/-! PROOF. The skips that compare a register with an immediate or with a register (42_skips.md R160 to R164). -/

namespace Sys2Proof.Machine

/-- A conditional skip by a test that decides `p`: `pc` moves on by 2 when `p` holds, and nothing else changes (R160). -/
theorem State.skipIf_of_iff {c : Bool} {p : Prop} [Decidable p] (h : c = true ↔ p) (s : State) :
    s.skipIf c = { s with pc := if p then s.pc + 2 else s.pc } := by
  simp only [State.skipIf_eq, h]

/-- An instruction that is a conditional skip and no more (R160), by the condition its test decides. -/
theorem exec_eq_of_skipIf {ins : Instr} {s : State} {c : Bool} {p : Prop} [Decidable p]
    (he : exec ins s = .next (s.skipIf c)) (h : c = true ↔ p) :
    exec ins s = .next { s with pc := if p then s.pc + 2 else s.pc } := by
  rw [he, State.skipIf_of_iff h]

/-- Settles O22: 3XNN and 4XNN are conditional skips, by `V[X] == NN` and by `V[X] != NN`. -/
theorem skipsOnImmediate : Obligations.SkipsOnImmediate :=
  fun _ _ _ => ⟨exec_eq_of_skipIf rfl beq_iff_eq, exec_eq_of_skipIf rfl bne_iff_ne⟩

/-- Settles O23: 5XY_ and 9XY_ are conditional skips, by `V[X] == V[Y]` and by `V[X] != V[Y]`; neither meaning reads the low
nibble. -/
theorem skipsOnRegisters : Obligations.SkipsOnRegisters :=
  fun _ _ _ _ => ⟨exec_eq_of_skipIf rfl beq_iff_eq, exec_eq_of_skipIf rfl bne_iff_ne⟩

end Sys2Proof.Machine
end

section
/-! PROOF. The registers and the arithmetic unit (43_alu.md R170 to R184). A meaning here is one register write, or a result and
then a flag, so the frame and the reads are said once for each of the two shapes; what is left is arithmetic on bytes. -/

namespace Sys2Proof.Machine

/-! ### The two shapes of a register write (R170) -/

theorem onlyRegisters_setV (s : State) (x : Nibble) (b : Byte) : OnlyRegisters s (s.setV x b) := ⟨rfl, fun _ => rfl⟩

theorem onlyRegisters_setResultThenFlag (x : Nibble) (b : Byte) (f : Bool) (s : State) :
    OnlyRegisters s (setResultThenFlag x b f s) := ⟨setResultThenFlag_frame x b f s, fun _ => rfl⟩

/-- An instruction that is one register write and no more, its registers read through `view` (as bytes or as numbers). -/
theorem exec_of_setV {α : Type} (view : Byte → α) {ins : Instr} {s : State} {x : Nibble} {b : Byte} {result : α}
    (he : exec ins s = .next (s.setV x b)) (hb : view b = result) :
    ∃ t, exec ins s = .next t ∧ OnlyRegisters s t ∧
      ∀ r, view (t.getV r) = if r = x then result else view (s.getV r) := by
  refine ⟨_, he, onlyRegisters_setV s x b, fun r => ?_⟩
  rw [State.getV_setV, apply_ite view, hb]

/-- An instruction that writes a result and then a flag and no more, its registers read through `view`. -/
theorem exec_of_setResultThenFlag {α : Type} (view : Byte → α) {ins : Instr} {s : State} {x : Nibble} {b : Byte} {f : Bool}
    {flag result : α} (he : exec ins s = .next (setResultThenFlag x b f s)) (hf : view (flagByte f) = flag)
    (hb : view b = result) :
    ∃ t, exec ins s = .next t ∧ OnlyRegisters s t ∧
      ∀ r, view (t.getV r) = if r = 0xF#4 then flag else if r = x then result else view (s.getV r) := by
  refine ⟨_, he, onlyRegisters_setResultThenFlag x b f s, fun r => ?_⟩
  rw [getV_setResultThenFlag, apply_ite view, apply_ite view, hf, hb]

/-- A read of a register after a write of one and a step of the draw counter. -/
theorem State.getV_setV_draws (s : State) (x : Nibble) (b : Byte) (n : Nat) (r : Nibble) :
    State.getV { s.setV x b with rndDraws := n } r = if r = x then b else s.getV r :=
  State.getV_setV s x b r

/-! ### Flags as numbers (R170, R177 to R181) -/

@[simp] theorem toNat_flagByte (f : Bool) : (flagByte f).toNat = f.toNat := by
  cases f <;> rfl

theorem toNat_flagByte_carryOut (a b : Byte) :
    (flagByte (carryOut a b)).toNat = if 256 ≤ a.toNat + b.toNat then 1 else 0 := by
  rw [toNat_flagByte, carryOut, Bool.toNat, Bool.cond_decide]

theorem toNat_flagByte_noBorrow (a b : Byte) : (flagByte (noBorrow a b)).toNat = if b.toNat ≤ a.toNat then 1 else 0 := by
  rw [toNat_flagByte, noBorrow, Bool.toNat, Bool.cond_decide]

theorem toNat_flagByte_shiftedOutRight (b : Byte) : (flagByte (shiftedOutRight b)).toNat = b.toNat % 2 := by
  rw [toNat_flagByte, shiftedOutRight, BitVec.getLsbD, Nat.toNat_testBit, Nat.pow_zero, Nat.div_one]

/-- Bit 7 is the quotient by 128, because a byte stays below 256. -/
theorem toNat_flagByte_shiftedOutLeft (b : Byte) : (flagByte (shiftedOutLeft b)).toNat = b.toNat / 128 := by
  rw [toNat_flagByte, shiftedOutLeft, BitVec.getLsbD, Nat.toNat_testBit]
  omega

/-! ### Results and operands (R178 to R181) -/

/-- The difference of bytes is the difference of the integers modulo 256. -/
theorem toNat_sub_eq_emod (a b : Byte) : ((a - b).toNat : Int) = ((a.toNat : Int) - b.toNat) % 256 := by
  rw [BitVec.toNat_sub]
  omega

theorem toNat_shiftRight_one (b : Byte) : (b >>> 1).toNat = b.toNat / 2 := by
  rw [BitVec.toNat_ushiftRight, Nat.shiftRight_one]

theorem toNat_shiftLeft_one (b : Byte) : (b <<< 1).toNat = b.toNat * 2 % 256 := by
  rw [BitVec.toNat_shiftLeft, Nat.shiftLeft_eq, Nat.pow_one]

/-- The value shifted is that of the register the toggle selects. -/
theorem shiftSource_eq_getV (x y : Nibble) (s : State) :
    shiftSource x y s = s.getV (if s.cfg.shiftVy then y else x) :=
  (apply_ite s.getV (s.cfg.shiftVy = true) y x).symm

/-- A subtraction of bytes that writes the difference and then no-borrow, its registers read as integers. -/
theorem exec_of_subtraction {ins : Instr} {s : State} {x : Nibble} {a b : Byte}
    (he : exec ins s = .next (setResultThenFlag x (a - b) (noBorrow a b) s)) :
    ∃ t, exec ins s = .next t ∧ OnlyRegisters s t ∧
      ∀ r, ((t.getV r).toNat : Int) =
        if r = 0xF#4 then (if b.toNat ≤ a.toNat then 1 else 0)
        else if r = x then ((a.toNat : Int) - b.toNat) % 256 else (s.getV r).toNat := by
  have hflag : ((flagByte (noBorrow a b)).toNat : Int) = if b.toNat ≤ a.toNat then 1 else 0 := by
    rw [toNat_flagByte_noBorrow, Nat.cast_ite, Nat.cast_one, Nat.cast_zero]
  exact exec_of_setResultThenFlag (fun c : Byte => (c.toNat : Int)) he hflag (toNat_sub_eq_emod a b)

/-! ### The obligations -/

/-- Settles O24: 6XNN is one register write. -/
theorem loadImmediate : Obligations.LoadImmediate :=
  fun _ _ _ => exec_of_setV id rfl rfl

/-- Settles O25: 7XNN is one register write, and the sum of bytes is the sum of the numbers modulo 256. -/
theorem addImmediate : Obligations.AddImmediate :=
  fun x nn s => exec_of_setV BitVec.toNat rfl (BitVec.toNat_add (s.getV x) nn)

/-- Settles O26: 8XY0 is one register write. -/
theorem copyRegister : Obligations.CopyRegister :=
  fun _ _ _ => exec_of_setV id rfl rfl

/-- Settles O27: 8XY1, 8XY2 and 8XY3 are one register write each, so VF is written only as `V[X]`. -/
theorem logicLeavesFlagAlone : Obligations.LogicLeavesFlagAlone :=
  fun _ _ _ => ⟨exec_of_setV id rfl rfl, exec_of_setV id rfl rfl, exec_of_setV id rfl rfl⟩

/-- Settles O28: 8XY4 writes the sum and then the carry. -/
theorem addSetsCarry : Obligations.AddSetsCarry :=
  fun x y s => exec_of_setResultThenFlag BitVec.toNat rfl (toNat_flagByte_carryOut (s.getV x) (s.getV y))
    (BitVec.toNat_add (s.getV x) (s.getV y))

/-- Settles O29: 8XY5 and 8XY7 are one subtraction with the operands in the two orders. -/
theorem subtractSetsNoBorrow : Obligations.SubtractSetsNoBorrow :=
  fun _ _ _ => ⟨exec_of_subtraction rfl, exec_of_subtraction rfl⟩

/-- Settles O30: 8XY6 and 8XYE write the shifted value and then the bit shifted out. -/
theorem shiftsByOne : Obligations.ShiftsByOne := by
  intro x y s
  rw [← shiftSource_eq_getV]
  exact ⟨exec_of_setResultThenFlag BitVec.toNat rfl (toNat_flagByte_shiftedOutRight _) (toNat_shiftRight_one _),
    exec_of_setResultThenFlag BitVec.toNat rfl (toNat_flagByte_shiftedOutLeft _) (toNat_shiftLeft_one _)⟩

/-- Settles O31: CXNN is one register write, of the free byte under its mask, and a step of the draw counter. -/
theorem randomByteIsMasked : Obligations.RandomByteIsMasked := by
  refine fun x nn s => ⟨_, Config.rndByte s.rndDraws, rfl, rfl, rfl, State.getV_setV_draws s x _ _, fun k hk => ?_, ?_,
    fun _ => rfl⟩
  · rw [State.getV_setV_draws, if_pos rfl, BitVec.getLsbD_and, hk, Bool.and_false]
  · rw [State.getV_setV_draws, if_pos rfl, BitVec.toNat_and]
    exact Nat.and_le_right

end Sys2Proof.Machine
end

section
/-! PROOF. The index register and the memory transfers (44_index_memory.md R200 to R206). Each transfer is its effect where its
range ends inside memory and the fault alone where it does not; what a store leaves in memory and what the advance of `I` leaves
are said once. -/

namespace Sys2Proof.Machine

/-! ### The index register (R200 to R202) -/

/-- The address of a glyph fits in 16 bits whatever the byte, so no mask is needed (decision D13). -/
theorem toNat_glyphAddress (b : Byte) : (BitVec.ofNat 16 (Config.fontBase + 5 * b.toNat)).toNat = 0x050 + 5 * b.toNat := by
  rw [BitVec.toNat_ofNat, Config.fontBase]
  exact Nat.mod_eq_of_lt (by omega)

/-- Settles O32, by the one arm of ANNN. -/
theorem loadIndex : Obligations.LoadIndex :=
  fun nnn s => ⟨s.setI (addrOperand nnn), rfl, rfl, toNat_addrOperand nnn⟩

/-- Settles O33: the sum wraps at the width of `I`, and the glyph's address does not reach it. -/
theorem indexArithmetic : Obligations.IndexArithmetic := by
  refine fun x s => ⟨⟨s.setI (s.i + byteOperand (s.getV x)), rfl, rfl, ?_⟩,
    s.setI (BitVec.ofNat 16 (Config.fontBase + 5 * (s.getV x).toNat)), rfl, rfl, toNat_glyphAddress (s.getV x)⟩
  rw [State.setI_i, BitVec.toNat_add, toNat_byteOperand]

/-! ### The optional advance of `I` (R204, R205) -/

theorem readByte_advanceI (x : Nibble) (s : State) (a : Nat) : (advanceI x s).readByte a = s.readByte a :=
  State.readByte_congr (kept_advanceI (p := .memory) x s nofun) a

/-- The advance reads nothing that FX65 loads. -/
theorem advanceI_loadRegisters (x : Nibble) (s : State) :
    advanceI x (loadRegisters x s) = { advanceI x s with v := (loadRegisters x s).v } := by
  rw [loadRegisters_frame, advanceI_eq, advanceI_eq]

/-- Past a valid range `I` is at most 0x1000, so the advance does not wrap. -/
theorem toNat_i_advanceI {x : Nibble} {s : State} (h : s.i.toNat + x.toNat ≤ 0xFFF) :
    (advanceI x s).i.toNat = if s.cfg.memInc then s.i.toNat + x.toNat + 1 else s.i.toNat := by
  have hsum : (s.i + BitVec.ofNat 16 (x.toNat + 1)).toNat = s.i.toNat + x.toNat + 1 := by
    rw [BitVec.toNat_add, BitVec.toNat_ofNat]
    omega
  simp only [advanceI_eq, apply_ite BitVec.toNat, hsum]

/-! ### What a store leaves in memory (R64) -/

/-- Inside the range of a store: the byte stored there. -/
theorem State.readByte_writeBytes_inside {s : State} (hs : MemoryCanonical s) {a j : Nat} {bs : List Byte}
    (ha : a + bs.length ≤ 0x1000) (hj : j < bs.length) : (s.writeBytes a bs).readByte (a + j) = bs.getD j 0 := by
  rw [State.readByte_writeBytes hs ha, if_pos (by omega), Nat.add_sub_cancel_left]

/-- Outside the range of a store: the byte that was there. -/
theorem State.readByte_writeBytes_outside {s : State} (hs : MemoryCanonical s) {a c : Nat} {bs : List Byte}
    (ha : a + bs.length ≤ 0x1000) (hc : c < a ∨ a + bs.length ≤ c) : (s.writeBytes a bs).readByte c = s.readByte c := by
  rw [State.readByte_writeBytes hs ha, if_neg (by omega)]

/-! ### The transfers, inside memory and past its end (R203 to R206) -/

theorem exec_ldB_of_valid {s : State} (h : s.i.toNat + 2 ≤ 0xFFF) (x : Nibble) :
    exec (.ldB x) s = .next (s.writeBytes s.i.toNat (bcdDigits (s.getV x))) :=
  withRange_ok (.inr (by omega)) _

theorem exec_ldMemVx_of_valid {x : Nibble} {s : State} (h : s.i.toNat + x.toNat ≤ 0xFFF) :
    exec (.ldMemVx x) s = .next (advanceI x (s.writeBytes s.i.toNat (firstRegisters x s))) :=
  withRange_ok (.inr (by omega)) _

theorem exec_ldVxMem_of_valid {x : Nibble} {s : State} (h : s.i.toNat + x.toNat ≤ 0xFFF) :
    exec (.ldVxMem x) s = .next { advanceI x s with v := (loadRegisters x s).v } :=
  (withRange_ok (.inr (by omega)) _).trans (congrArg _ (advanceI_loadRegisters x s))

/-- A transfer of `n` bytes that passes 0xFFF takes the fault at the instruction's address, with the lowest invalid address. -/
theorem withRange_faultTaken {n : Nat} {s : State} {bad : Word} (hbad : bad.toNat = max s.i.toNat 0x1000) (hn : 0 < n)
    (hend : 0xFFF < s.i.toNat + n - 1) (k : State) :
    ∃ t, withRange n s k = .next t ∧ FaultTaken .memoryOutOfBounds (s.pc - 2) bad s t := by
  obtain rfl : BitVec.ofNat 16 (max s.i.toNat 0x1000) = bad := by
    rw [← hbad, BitVec.ofNat_toNat, BitVec.setWidth_eq]
  exact ⟨_, withRange_fault hn (by omega) k, faultTaken_raise .memoryOutOfBounds _ s⟩

/-! ### Decimal digits (R203) -/

theorem length_bcdDigits (b : Byte) : (bcdDigits b).length = 3 := rfl

/-- A digit is below 256, so a byte holds it whole: the bytes FX33 stores are the digits as numbers. -/
theorem toNat_getD_bcdDigits (b : Byte) :
    ((bcdDigits b).getD 0 0).toNat = b.toNat / 100 ∧ ((bcdDigits b).getD 1 0).toNat = b.toNat / 10 % 10 ∧
      ((bcdDigits b).getD 2 0).toNat = b.toNat % 10 := by
  have hheld {d : Nat} (hd : d < 256) : (BitVec.ofNat 8 d).toNat = d := BitVec.toNat_ofNat d 8 ▸ Nat.mod_eq_of_lt hd
  exact ⟨hheld (by omega), hheld (by omega), hheld (by omega)⟩

/-! ### The obligations -/

/-- Settles O34: the store is three bytes long, and each read finds its digit or what was there. -/
theorem storeDecimalDigits : Obligations.StoreDecimalDigits := by
  intro x s hs hrange
  have hlen := length_bcdDigits (s.getV x)
  have ha : s.i.toNat + (bcdDigits (s.getV x)).length ≤ 0x1000 := by omega
  have hread {j : Nat} (hj : j < 3) := State.readByte_writeBytes_inside hs ha (hlen ▸ hj)
  obtain ⟨hundreds, tens, units⟩ := toNat_getD_bcdDigits (s.getV x)
  refine ⟨_, exec_ldB_of_valid hrange x, rfl, hs.writeBytes _ _, ?_, ?_, ?_, fun a hout => ?_⟩
  · exact (congrArg BitVec.toNat (hread (j := 0) (by decide))).trans hundreds
  · exact (congrArg BitVec.toNat (hread (by decide))).trans tens
  · exact (congrArg BitVec.toNat (hread (by decide))).trans units
  · exact State.readByte_writeBytes_outside hs ha (by omega)

/-- Settles O35: the advance leaves memory, so each byte is what the store of `V[0]` to `V[X]` left. -/
theorem storeRegisters : Obligations.StoreRegisters := by
  intro x s hs hrange
  have hlen := length_firstRegisters x s
  have ha : s.i.toNat + (firstRegisters x s).length ≤ 0x1000 := by omega
  refine ⟨_, exec_ldMemVx_of_valid hrange, ?_, (hs.writeBytes _ _).of_kept (kept_advanceI x _ nofun), fun r hr => ?_,
    fun a hout => ?_, toNat_i_advanceI hrange⟩
  · rw [advanceI_eq]
    rfl
  · rw [readByte_advanceI, State.readByte_writeBytes_inside hs ha (by omega), getD_firstRegisters x s hr, BitVec.ofNat_toNat,
      BitVec.setWidth_eq]
  · rw [readByte_advanceI, State.readByte_writeBytes_outside hs ha (by omega)]

/-- Settles O36: the load writes the registers alone and the advance `I` alone. (The model's own operation is named
`loadRegisters`.) -/
theorem loadRegistersFromMemory : Obligations.LoadRegisters := by
  intro x s hrange
  refine ⟨_, exec_ldVxMem_of_valid hrange, ?_, getV_loadRegisters x s, toNat_i_advanceI hrange, readByte_advanceI x s⟩
  rw [advanceI_eq]

/-- Settles O37: all four check their range first, and differ in its length alone. -/
theorem transfersPastEndFault : Obligations.TransfersPastEndFault :=
  fun _ _ hbad =>
    ⟨fun _ hend => withRange_faultTaken hbad (Nat.succ_pos 2) hend _,
      fun x hend => ⟨withRange_faultTaken hbad (Nat.succ_pos x.toNat) hend _,
        withRange_faultTaken hbad (Nat.succ_pos x.toNat) hend _⟩,
      fun _ _ _ hrows hend => withRange_faultTaken hbad hrows hend _⟩

end Sys2Proof.Machine
end

section
/-! PROOF. The frame handed over, and 00E0 (45_display.md R220, R227). -/

namespace Sys2Proof.Machine

/-! ### The frame handed over (R227) -/

theorem SnapshotCurrent.of_kept {s t : State} (hs : SnapshotCurrent s) (hk : StatePart.display.Kept s t) :
    SnapshotCurrent t := by
  obtain ⟨hfb, -, hout⟩ := hk
  unfold SnapshotCurrent
  rwa [hfb, hout]

/-- An execution hands the framebuffer over, or it leaves the display and the frame handed over last. -/
theorem exec_presents_or_keeps_display {i : Instr} {s t : State} (h : exec i s = .next t) :
    t.fbOut = some t.fb ∨ StatePart.display.Kept s t := by
  by_cases hw : StatePart.display.Writer s.cfg.memInc i
  · obtain rfl | ⟨x, y, n, rfl⟩ := hw
    · obtain rfl := exec_leads h
      exact .inl rfl
    · obtain ⟨-, rfl⟩ | ⟨-, -, rfl⟩ := exec_leads h
      · exact .inl rfl
      · exact .inr (kept_takeFault _ _ _ s nofun)
  · exact .inr (exec_keeps h hw)

theorem SnapshotCurrent.exec {i : Instr} {s t : State} (hs : SnapshotCurrent s) (h : exec i s = .next t) :
    SnapshotCurrent t :=
  (exec_presents_or_keeps_display h).elim .inl hs.of_kept

theorem SnapshotCurrent.cycle {u t : State} (hu : SnapshotCurrent u) (h : CycleLeads u t) : SnapshotCurrent t := by
  obtain ⟨-, rfl⟩ | ⟨-, h⟩ := h
  · exact SnapshotCurrent.of_kept (s := beginCycle u) hu (kept_takeFault _ _ _ _ nofun)
  · exact SnapshotCurrent.exec (s := (beginCycle u).setPc (u.pc + 2)) hu h

/-- Settles O56: only 00E0, DXYN and a reset touch the framebuffer, and each leaves the frame handed over in step with it. -/
theorem snapshotStaysCurrent : Obligations.SnapshotStaysCurrent := by
  intro s t hs h
  refine step_preserves (Inv := SnapshotCurrent) (fun ho hs => ?_) (fun _ hu hc => hu.cycle hc)
    (fun rom cfg s _ => snapshotCurrent_powerOn s.par cfg rom) hs h
  rw [ho]
  exact hs

/-! ### 00E0 (R220) -/

/-- Settles O38, by the one arm of 00E0. -/
theorem clearTurnsEveryPixelOff : Obligations.ClearTurnsEveryPixelOff :=
  fun s => ⟨State.present { s with fb := Vector.replicate 32 0 }, rfl, rfl, fun y x => by simp [Frame.pixel]⟩

end Sys2Proof.Machine
end

section
/-! SUPPORT. What the row masks of DXYN do and what the loops of R221 do, both said as "these pixels are toggled, and one of them
was on": one relation, `Toggled`, which a loop builds up iteration by iteration. -/

namespace Sys2Proof.Machine

/-! ### Pixels toggled, with the collision flag (R221, R224) -/

/-- From one pair of display and collision flag to another the pixels of `T` are toggled and no others, and the flag is raised
exactly when one of them was on. -/
structure Toggled (T : Fin 32 → Nat → Prop) (before after : Frame × Bool) : Prop where
  flips : ∀ {r c}, T r c → Frame.pixel after.1 r c = !Frame.pixel before.1 r c
  keeps : ∀ {r c}, ¬ T r c → Frame.pixel after.1 r c = Frame.pixel before.1 r c
  collides : after.2 = true ↔ before.2 = true ∨ ∃ r c, T r c ∧ Frame.pixel before.1 r c = true

section
variable {T U : Fin 32 → Nat → Prop} {before between after after' : Frame × Bool}

theorem Toggled.congr (h : Toggled T before after) (hTU : ∀ r c, T r c ↔ U r c) : Toggled U before after := by
  obtain rfl : T = U := funext₂ fun r c => propext (hTU r c)
  exact h

theorem Toggled.none (hT : ∀ r c, ¬ T r c) : Toggled T before before :=
  ⟨fun h => absurd h (hT _ _), fun _ => rfl, (or_iff_left fun ⟨r, c, h, _⟩ => hT r c h).symm⟩

/-- One set of pixels and then another that shares none with it: a pixel of the second is still as it was when its turn comes. -/
theorem Toggled.trans (hT : Toggled T before between) (hU : Toggled U between after) (hTU : ∀ r c, T r c → ¬ U r c) :
    Toggled (fun r c => T r c ∨ U r c) before after := by
  have still {r c} (hu : U r c) : Frame.pixel between.1 r c = Frame.pixel before.1 r c := hT.keeps fun ht => hTU r c ht hu
  refine ⟨fun {r c} h => ?_, fun h => ?_, ?_⟩
  · obtain ht | hu := h
    · rw [hU.keeps (hTU r c ht), hT.flips ht]
    · rw [hU.flips hu, still hu]
  · obtain ⟨ht, hu⟩ := not_or.mp h
    rw [hU.keeps hu, hT.keeps ht]
  · have second : (∃ r c, U r c ∧ Frame.pixel between.1 r c = true) ↔ ∃ r c, U r c ∧ Frame.pixel before.1 r c = true :=
      exists₂_congr fun r c => and_congr_right fun hu => by rw [still hu]
    rw [hU.collides, hT.collides, second, or_assoc]
    simp only [or_and_right, exists_or]

/-- The display and the flag after are determined. -/
theorem Toggled.unique (h : Toggled T before after) (h' : Toggled T before after') : after = after' := by
  have pixels (r : Fin 32) (c : Nat) : Frame.pixel after.1 r c = Frame.pixel after'.1 r c := by
    by_cases ht : T r c
    · rw [h.flips ht, h'.flips ht]
    · rw [h.keeps ht, h'.keeps ht]
  refine Prod.ext (Vector.ext fun k hk => BitVec.eq_of_getMsbD_eq fun c _ => pixels ⟨k, hk⟩ c) ?_
  exact Bool.eq_iff_iff.mpr (h.collides.trans h'.collides.symm)

/-- A loop whose iterations toggle disjoint sets of pixels toggles all of them. -/
theorem Toggled.foldl_range {S : Nat → Fin 32 → Nat → Prop} {body : Frame × Bool → Nat → Frame × Bool}
    (hbody : ∀ acc i, Toggled (S i) acc (body acc i)) (hS : ∀ i j r c, i < j → S i r c → ¬ S j r c) (n : Nat)
    (acc : Frame × Bool) : Toggled (fun r c => ∃ i < n, S i r c) acc ((List.range n).foldl body acc) := by
  induction n with
  | zero => exact .none fun r c ⟨i, hi, _⟩ => absurd hi (Nat.not_lt_zero i)
  | succ n ih =>
    rw [List.range_succ, List.foldl_append]
    refine (ih.trans (hbody _ n) fun r c ⟨i, hi, h⟩ => hS i n r c hi h).congr fun r c => ?_
    exact Nat.exists_lt_succ_right.symm

end

/-! ### The two loops of R221 -/

/-- Bit `7 - j` of a sprite byte is 1 and falls, unclipped, on the pixel of row `r` and column `c`, when the byte stands at
column `x0` of row `y`. -/
def SpriteBitOn (b : Byte) (x0 y j : Nat) (r : Fin 32) (c : Nat) : Prop :=
  r.val = y ∧ c = x0 + j ∧ c ≤ 63 ∧ b.getLsbD (7 - j) = true

/-- `fb[y][x] <- fb[y][x] xor 1` toggles its own pixel and no other. -/
theorem Frame.pixel_flip (fb : Frame) (y : Nat) {x : Nat} (hx : x ≤ 63) (r : Fin 32) (c : Nat) :
    Frame.pixel (Frame.flip fb y x) r c = (Frame.pixel fb r c ^^ decide (r.val = y ∧ c = x)) := by
  have hbit : (1#64 <<< (63 - x)).getMsbD c = decide (c = x) := by
    rw [BitVec.getMsbD_eq_getLsbD, BitVec.getLsbD_shiftLeft, BitVec.getLsbD_one, Bool.eq_iff_iff]
    simp only [Bool.and_eq_true, Bool.not_eq_true', decide_eq_true_eq, decide_eq_false_iff_not]
    omega
  unfold Frame.flip
  split
  · next hy =>
    by_cases hr : r.val = y
    · simp [Frame.pixel, hr, hbit]
    · simp [Frame.pixel, hr, Vector.getElem_set_ne _ _ (Ne.symm hr)]
  · next hy => simp [show r.val ≠ y by omega]

/-- A pixel that the loops read is on exactly when it is a pixel of the display and on there. -/
theorem Frame.at_eq_true_iff (fb : Frame) (y x : Nat) :
    Frame.at fb y x = true ↔ ∃ r : Fin 32, r.val = y ∧ Frame.pixel fb r x = true := by
  unfold Frame.at
  split
  · next hy => exact ⟨fun h => ⟨⟨y, hy⟩, rfl, h⟩, fun ⟨r, hr, h⟩ => by subst hr; exact h⟩
  · next hy => exact ⟨nofun, fun ⟨r, hr, _⟩ => absurd (hr ▸ r.isLt) hy⟩

theorem loopPixel_toggled (b : Byte) (x0 y : Nat) (acc : Frame × Bool) (j : Nat) :
    Toggled (SpriteBitOn b x0 y j) acc (loopPixel b x0 y acc j) := by
  unfold loopPixel
  split
  · next h =>
    obtain ⟨hx, hb⟩ := h
    have hT (r : Fin 32) (c : Nat) : SpriteBitOn b x0 y j r c ↔ r.val = y ∧ c = x0 + j :=
      ⟨fun ⟨hr, hc, _⟩ => ⟨hr, hc⟩, fun ⟨hr, hc⟩ => ⟨hr, hc, hc ▸ hx, hb⟩⟩
    refine ⟨fun h => ?_, fun h => ?_, ?_⟩
    · simp [Frame.pixel_flip _ _ hx, (hT _ _).mp h]
    · simp only [Frame.pixel_flip _ _ hx, ← hT, h, decide_false, Bool.xor_false]
    · simp only [hT, Bool.if_true_left, Bool.or_eq_true, decide_eq_true_eq, Frame.at_eq_true_iff, and_assoc,
        exists_and_left, exists_eq_left]
      exact or_comm
  · next h => exact .none fun r c ⟨_, hc, hx, hb⟩ => h ⟨hc ▸ hx, hb⟩

theorem loopRow_toggled (b : Byte) (x0 y : Nat) (acc : Frame × Bool) :
    Toggled (fun r c => ∃ j < 8, SpriteBitOn b x0 y j r c) acc (loopRow b x0 y acc) :=
  Toggled.foldl_range (loopPixel_toggled b x0 y) (fun i j r c hij ⟨_, hi, _⟩ ⟨_, hj, _⟩ => by omega) 8 acc

theorem loopSprite_toggled (s : State) (x0 y0 rows : Nat) :
    Toggled (fun r c => ∃ k < rows, ∃ j < 8, SpriteBitOn (s.readByte (s.i.toNat + k)) x0 (y0 + k) j r c) (s.fb, false)
      (loopSprite s x0 y0 rows) :=
  Toggled.foldl_range (fun acc k => loopRow_toggled (s.readByte (s.i.toNat + k)) x0 (y0 + k) acc)
    (fun i j r c hij ⟨_, _, hi, _⟩ ⟨_, _, hj, _⟩ => by omega) rows (s.fb, false)

/-- The pixels that the loops toggle are those on which an unclipped 1 bit of the sprite falls. -/
theorem spriteBits_iff_togglesPixel (s : State) (x y n : Nibble) (r : Fin 32) (c : Nat) :
    (∃ k < drawnRows s y n, ∃ j < 8, SpriteBitOn (s.readByte (s.i.toNat + k)) ((s.getV x).toNat % 64)
      ((s.getV y).toNat % 32 + k) j r c) ↔ TogglesPixel s x y n r c := by
  constructor
  · rintro ⟨k, hk, j, hj, hr, hc, hx, hb⟩
    refine ⟨by omega, by omega, by omega, by omega, hx, ?_⟩
    rwa [hr, hc, Nat.add_sub_cancel_left, Nat.add_sub_cancel_left]
  · rintro ⟨hr, hr', hc, hc', hx, hb⟩
    exact ⟨_, by omega, _, by omega, (Nat.add_sub_cancel' hr).symm, (Nat.add_sub_cancel' hc).symm, hx, hb⟩

/-! ### The row masks (R221 to R225) -/

/-- The masks of the sprite that DXYN draws in `s`. -/
def drawMask (s : State) (x y n : Nibble) : Nat → BitVec 64 :=
  spriteMask s ((s.getV x).toNat % 64) ((s.getV y).toNat % 32) (drawnRows s y n)

theorem exec_drw_of_valid {x y n : Nibble} {s : State} (h : drawnRows s y n = 0 ∨ s.i.toNat + drawnRows s y n - 1 ≤ 0xFFF) :
    exec (.drw x y n) s = .next (drawSprite s (drawMask s x y n)) :=
  withRange_ok (n := drawnRows s y n) (by omega) _

theorem getMsbD_drawMask_iff (s : State) (x y n : Nibble) (r : Fin 32) (c : Nat) :
    (drawMask s x y n r.val).getMsbD c = true ↔ TogglesPixel s x y n r c := by
  rw [drawMask, getMsbD_spriteMask, TogglesPixel]
  simp only [and_assoc]

/-- The XOR-blit toggles the pixels of its masks. -/
theorem xorRows_toggled (fb : Frame) (mask : Nat → BitVec 64) :
    Toggled (fun r c => (mask r.val).getMsbD c = true) (fb, false) (xorRows fb mask, collision fb mask) := by
  refine ⟨fun h => ?_, fun h => ?_, ?_⟩
  · rw [Frame.pixel_xorRows, h, Bool.xor_true]
  · rw [Frame.pixel_xorRows, Bool.eq_false_iff.mpr h, Bool.xor_false]
  · rw [collision_iff]
    simp only [Frame.pixel_xorRows, Bool.false_eq_true, false_or]
    refine exists₂_congr fun r c => (and_congr_right fun hon => ?_).trans and_comm
    rw [hon, Bool.true_xor, Bool.not_eq_false']

/-- DXYN toggles the pixels under its sprite's 1 bits, whatever the display. -/
theorem drawMask_toggled (s : State) (x y n : Nibble) (fb : Frame) :
    Toggled (TogglesPixel s x y n) (fb, false) (xorRows fb (drawMask s x y n), collision fb (drawMask s x y n)) :=
  (xorRows_toggled fb _).congr (getMsbD_drawMask_iff s x y n)

/-- The collision flag of DXYN, whatever the display (R224). -/
theorem collision_drawMask_iff (s : State) (x y n : Nibble) (fb : Frame) :
    collision fb (drawMask s x y n) = true ↔ ∃ r c, TogglesPixel s x y n r c ∧ Frame.pixel fb r c = true := by
  simpa using (drawMask_toggled s x y n fb).collides

theorem getV_drawSprite_flag (s : State) (mask : Nat → BitVec 64) :
    (drawSprite s mask).getV 0xF#4 = flagByte (collision s.fb mask) :=
  (getV_drawSprite s mask 0xF#4).trans (if_pos rfl)

end Sys2Proof.Machine
end

section
/-! PROOF. DXYN (45_display.md R221 to R226). -/

namespace Sys2Proof.Machine

/-- VF is 1 exactly when the condition of its flag holds, and else 0. -/
theorem flagByte_of_iff {f : Bool} {p : Prop} (h : f = true ↔ p) : (p → flagByte f = 1#8) ∧ (¬ p → flagByte f = 0#8) :=
  ⟨fun hp => if_pos (h.mpr hp), fun hp => if_neg (mt h.mp hp)⟩

/-- Settles O39: the pixels and the flag are those of the blit, and the blit's frame says what it leaves. -/
theorem drawXorsTheSprite : Obligations.DrawXorsTheSprite := by
  intro x y n s hvalid
  have pixels := drawMask_toggled s x y n s.fb
  obtain ⟨raised, clear⟩ := flagByte_of_iff (collision_drawMask_iff s x y n s.fb)
  refine ⟨_, exec_drw_of_valid hvalid, drawSprite_frame s _, fun r c _ => ⟨pixels.flips, pixels.keeps⟩, ?_, ?_,
    fun k hk => ?_, fun _ => rfl⟩
  · rwa [getV_drawSprite_flag]
  · rwa [getV_drawSprite_flag]
  · rw [getV_drawSprite, if_neg hk]

/-- A pixel toggled twice collides the second time exactly when it was off at first. -/
theorem collision_xorRows_drawMask_iff (s : State) (x y n : Nibble) (fb : Frame) :
    collision (xorRows fb (drawMask s x y n)) (drawMask s x y n) = true ↔
      ∃ r c, TogglesPixel s x y n r c ∧ Frame.pixel fb r c = false := by
  rw [collision_drawMask_iff]
  refine exists₂_congr fun r c => and_congr_right fun ht => ?_
  rw [(drawMask_toggled s x y n fb).flips ht, Bool.not_eq_true']

/-- After a draw a DXYN that does not name VF finds the same rows of the same sprite at the same place. -/
theorem exec_drw_drawSprite {x y n : Nibble} {s : State} (hx : x ≠ 0xF#4) (hy : y ≠ 0xF#4)
    (hvalid : drawnRows s y n = 0 ∨ s.i.toNat + drawnRows s y n - 1 ≤ 0xFFF) (mask : Nat → BitVec 64) :
    exec (.drw x y n) (drawSprite s mask) = .next (drawSprite (drawSprite s mask) (drawMask s x y n)) := by
  have hvx : (drawSprite s mask).getV x = s.getV x := (getV_drawSprite s mask x).trans (if_neg hx)
  have hvy : (drawSprite s mask).getV y = s.getV y := (getV_drawSprite s mask y).trans (if_neg hy)
  have hrows : drawnRows (drawSprite s mask) y n = drawnRows s y n := by rw [drawnRows, hvy, drawnRows]
  have hmask : drawMask (drawSprite s mask) x y n = drawMask s x y n := by
    rw [drawMask, hvx, hvy, hrows]
    rfl
  rw [exec_drw_of_valid (hrows ▸ hvalid), hmask]

/-- Settles O40: the second DXYN draws with the same masks, so it undoes the first; where every pixel under the sprite was off at
first, "a pixel that was off" is any pixel under it. -/
theorem drawTwiceRestores : Obligations.DrawTwiceRestores := by
  intro x y n s hx hy hvalid
  obtain ⟨raised, clear⟩ := flagByte_of_iff (collision_xorRows_drawMask_iff s x y n s.fb)
  refine ⟨_, _, exec_drw_of_valid hvalid, exec_drw_drawSprite hx hy hvalid _, xorRows_xorRows s.fb _, ?_⟩
  rw [getV_drawSprite_flag]
  refine ⟨raised, clear, fun hoff => ?_⟩
  have hall := exists₂_congr fun r c => and_iff_left_of_imp (hoff r c)
  exact ⟨fun h => raised (hall.mpr h), fun h => clear (mt hall.mp h)⟩

/-- Settles O41: the loops toggle the pixels that the masks toggle, and what toggles given pixels is determined. -/
theorem spriteUnitRefinesPixelLoop : Obligations.SpriteUnitRefinesPixelLoop := by
  intro x y n s t hvalid h
  obtain rfl := Host.Outcome.next.inj ((exec_drw_of_valid hvalid).symm.trans h)
  have hloop := (loopSprite_toggled s ((s.getV x).toNat % 64) ((s.getV y).toNat % 32) (drawnRows s y n)).congr
    (spriteBits_iff_togglesPixel s x y n)
  rw [← (drawMask_toggled s x y n s.fb).unique hloop]
  exact ⟨rfl, getV_drawSprite_flag s _⟩

end Sys2Proof.Machine
end

section
/-! PROOF. The keypad: the two key skips, the arms of FX0A, and where `pc` stands while a key wait is in progress (46_keypad.md
R240 to R246). -/

namespace Sys2Proof.Machine

/-! ### What FX0A answers, arm by arm (R243) -/

theorem exec_ldVxK_of_idle {s : State} (h : s.kwState = .idle) (x : Nibble) :
    exec (.ldVxK x) s = .next (State.hold { s with kwState := .awaitPress }) := by
  simp only [exec, execLdVxK, h]

theorem exec_ldVxK_of_no_key {s : State} (h : s.kwState = .awaitPress) (hl : s.lastKey = none) (x : Nibble) :
    exec (.ldVxK x) s = .next s.hold := by
  simp only [exec, execLdVxK, h, hl]

theorem exec_ldVxK_of_press {s : State} {k : Nibble} (h : s.kwState = .awaitPress) (hl : s.lastKey = some k) (x : Nibble) :
    exec (.ldVxK x) s = .next (State.hold { s with kwKey := k, kwState := .awaitRelease }) := by
  simp only [exec, execLdVxK, h, hl]

theorem exec_ldVxK_of_key_down {s : State} (h : s.kwState = .awaitRelease) (hd : s.keyDown ≠ 0) (x : Nibble) :
    exec (.ldVxK x) s = .next s.hold := by
  simp only [exec, execLdVxK, h, if_neg hd]

theorem exec_ldVxK_of_keys_up {s : State} (h : s.kwState = .awaitRelease) (hd : s.keyDown = 0) (x : Nibble) :
    exec (.ldVxK x) s = .next { s.setV x (s.kwKey.setWidth 8) with kwState := .idle } := by
  simp only [exec, execLdVxK, h, if_pos hd]

/-- An FX0A that leaves a wait in progress has taken back the fetch's advance of `pc`. -/
theorem exec_ldVxK_idle_or_holds {x : Nibble} {s t : State} (h : exec (.ldVxK x) s = .next t) :
    t.kwState = .idle ∨ t.pc = s.pc - 2 := by
  obtain ⟨-, rfl⟩ | ⟨k, -, -, rfl⟩ | ⟨-, -, rfl⟩ | ⟨-, -, rfl⟩ | ⟨-, -, rfl⟩ := exec_leads h
  · exact .inr rfl
  · exact .inr rfl
  · exact .inr rfl
  · exact .inl rfl
  · exact .inr rfl

/-! ### A key wait stays at its instruction (R246) -/

theorem State.readWord_congr {s t : State} (h : t.mem = s.mem) (a : Nat) : t.readWord a = s.readWord a := by
  rw [State.readWord, State.readByte_congr h, State.readByte_congr h, State.readWord]

/-- A wait in progress makes the next cycle an FX0A, which ends the wait or holds and writes no memory; any other instruction, and
a fault at the fetch, finds no wait and begins none. -/
theorem KeyWaitAtInstruction.cycle {u t : State} (hu : KeyWaitAtInstruction u) (h : CycleLeads u t) :
    KeyWaitAtInstruction t := by
  intro ht
  obtain ⟨hp, rfl⟩ | ⟨hp, h⟩ := h
  · rw [takeFault_kwState] at ht
    exact absurd (hu ht).1 (Nat.not_le.mpr hp)
  by_cases hx : ∃ x, decode (u.readWord u.pc.toNat) = .ldVxK x
  · obtain ⟨x, hx⟩ := hx
    rw [hx] at h
    have hpc : t.pc = u.pc := ((exec_ldVxK_idle_or_holds h).resolve_left ht).trans (BitVec.add_sub_cancel u.pc 2)
    have hmem : StatePart.memory.Kept _ t := exec_keeps h (by simp [StatePart.Writer])
    rw [hpc, State.readWord_congr (s := u) hmem]
    exact ⟨hp, x, hx⟩
  · obtain ⟨hkw, -⟩ : StatePart.keyWait.Kept _ t := exec_keeps h hx
    exact absurd (hu (hkw ▸ ht)).2 hx

/-- Settles O54: a cycle keeps a wait at its instruction, no agent beside the core moves `pc`, memory or the wait, and a reset
ends it. -/
theorem keyWaitStaysAtInstruction : Obligations.KeyWaitStaysAtInstruction := by
  intro s t hs h
  refine step_preserves (Inv := KeyWaitAtInstruction) (fun ho hs => ?_) (fun _ hu hc => hu.cycle hc)
    (fun _ _ _ _ hi => absurd rfl hi) hs h
  rw [ho]
  exact hs

/-! ### The key skips (R240 to R242) -/

theorem keyIsDown_of_toNat_eq {b : Byte} {k : Fin 16} (h : b.toNat = k.val) (s : State) :
    keyIsDown b s = s.keyDown.getLsbD k.val := by
  rw [keyIsDown, h, decide_eq_true (Nat.le_of_lt_succ k.isLt), Bool.true_and]

/-- A value above 15 names no key (decision D14). -/
theorem keyIsDown_of_le {b : Byte} (h : 16 ≤ b.toNat) (s : State) : keyIsDown b s = false := by
  rw [keyIsDown, decide_eq_false (Nat.not_le.mpr h), Bool.false_and]

/-- Both key skips, by what `KeyDown(V[X])` answers: the one skips on it, the other on its complement. -/
theorem exec_keySkips {x : Nibble} {s : State} {down : Bool} (h : keyIsDown (s.getV x) s = down) :
    exec (.skp x) s = .next { s with pc := if down then s.pc + 2 else s.pc } ∧
    exec (.sknp x) s = .next { s with pc := if down then s.pc else s.pc + 2 } := by
  refine ⟨exec_eq_of_skipIf rfl (by rw [h]), ?_⟩
  rw [← ite_not]
  exact exec_eq_of_skipIf rfl (by rw [h, Bool.not_eq_true', Bool.not_eq_true])

/-! ### The obligations on instructions -/

/-- Settles O42: up to 15 the value asks for its key's bit, and above 15 for no key. -/
theorem keySkips : Obligations.KeySkips :=
  fun _ s => ⟨fun _ hk => exec_keySkips (keyIsDown_of_toNat_eq hk s), fun h => exec_keySkips (keyIsDown_of_le h s)⟩

/-- Settles O43: each clause is one arm; the last one writes the recorded key as a byte. -/
theorem keyWaitMachine : Obligations.KeyWaitMachine := by
  intro x s
  refine ⟨fun h => exec_ldVxK_of_idle h x, fun h hl => exec_ldVxK_of_no_key h hl x, fun k h hl => exec_ldVxK_of_press h hl x,
    fun h hd => exec_ldVxK_of_key_down h hd x, fun h hd => ⟨_, exec_ldVxK_of_keys_up h hd x, rfl, fun r => ?_⟩⟩
  have hkey : (s.kwKey.setWidth 8).toNat = s.kwKey.toNat := BitVec.toNat_setWidth_of_le (by decide)
  have hread : State.getV { s.setV x (s.kwKey.setWidth 8) with kwState := .idle } r =
      if r = x then s.kwKey.setWidth 8 else s.getV r := State.getV_setV s x _ r
  rw [hread, apply_ite BitVec.toNat, hkey]

end Sys2Proof.Machine
end

section
/-! PROOF. The timers seen from the core: FX07, FX15 and FX18 (47_timers.md R260 to R262). What makes the timers count is said
with the timer and the host beside the core. -/

namespace Sys2Proof.Machine

/-- Settles O44: FX07 is one register write, of the byte in DT; FX15 and FX18 are one arm each, a write of one timer. -/
theorem timerInstructions : Obligations.TimerInstructions :=
  fun _ _ => ⟨exec_of_setV id rfl rfl, rfl, rfl⟩

end Sys2Proof.Machine
end

section
/-! PROOF. Unknown words (48_unknown.md R270). -/

namespace Sys2Proof.Machine

/-- An unknown word is a no-operation (R270). -/
theorem exec_unknown (w : Word) (s : State) : exec (.unknown w) s = .next s := rfl

/-- Settles O45: the cycle of an unknown word is the fetch (O6) followed by nothing. -/
theorem unknownWordDoesNothing : Obligations.UnknownWordDoesNothing := by
  refine ⟨exec_unknown, fun s w hc hp hw => ⟨_, ?_, rfl⟩⟩
  obtain ⟨hstep, -⟩ := stepRunsDecodedInstruction
  rw [hstep s hc hp, hw, exec_unknown]

end Sys2Proof.Machine
end

section
/-! PROOF. Where the four faults are raised and what they leave (60_exceptions.md R280 to R284, R288, R289). -/

namespace Sys2Proof.Machine

/-! ### The fault of the fetch (R283) -/

/-- A fetch past the end of memory takes the fault at `pc` itself, on the state in which the cycle began. -/
theorem cycle_faultTaken {u : State} (hp : 0xFFE < u.pc.toNat) :
    ∃ t, cycle u = .next t ∧ FaultTaken .endOfMemory u.pc 0 { u with redraw := false, outcome := .ok } t :=
  ⟨_, cycle_of_lt_pc hp, takeFault_frame .endOfMemory u.pc 0 (beginCycle u)⟩

/-- A pass that the schedule asks for when a cycle is due runs it, at the present time. -/
theorem step_eq_cycle_of_scheduled {s : State} {rest : List AgentStep} (hs : s.schedule = .corePass :: rest)
    (hq : s.quit = false) (hi : 1 ≤ s.cfg.ips) (hh : s.halted = false)
    (hd : s.nextDue * (s.now.denPred + 1) ≤ s.now.num * s.cfg.ips) :
    step s = cycle { s with schedule := rest, nextDue := s.nextDue + 1 } :=
  (step_of_schedule hs).trans
    (corePass_of_running (u := { s with schedule := rest }) hq hi ((State.isDue_iff _).mpr hd) hh)

/-- Settles O7: an empty schedule and a scheduled pass come to the same cycle, and waiting changes the time alone. -/
theorem fetchPastEndTakesEndOfMemory : Obligations.FetchPastEndTakesEndOfMemory := by
  refine ⟨fun s hc hp => ?_, fun s rest hs hq hi hh hd hp => ?_⟩
  · rw [hc.step_eq_cycle]
    obtain ⟨now, hw⟩ : ∃ now, s.waitDue = { s with now := now } := ⟨_, s.waitDue_eq⟩
    rw [hw]
    exact cycle_faultTaken hp
  · rw [step_eq_cycle_of_scheduled hs hq hi hh hd]
    exact cycle_faultTaken hp

/-! ### The faults of the instructions (R281, R282, R284) -/

/-- The address that a fault raised inside an instruction records: the lowest invalid one of the bytes from `I` (R206), or 0 where
no address is involved. -/
def recordedAddress (f : CycleOutcome) (s : State) : Word :=
  if f = .memoryOutOfBounds then BitVec.ofNat 16 (max s.i.toNat 0x1000) else 0

/-- R124 and R280: which instruction may raise the fault, and from which state the two faults of the stack are raised. -/
def MayRaise (i : Instr) (s : State) (f : CycleOutcome) : Prop :=
  (i = .ret ∧ f = .stackUnderflow ∧ s.sp.val = 0) ∨
  (∃ nnn, i = .call nnn ∧ f = .stackOverflow ∧ s.sp.val = 16) ∨
  (f = .memoryOutOfBounds ∧
    ((∃ x y n, i = .drw x y n) ∨ (∃ x, i = .ldB x) ∨ (∃ x, i = .ldMemVx x) ∨ (∃ x, i = .ldVxMem x)))

@[simp] theorem raise_outcome (f : CycleOutcome) (fa : Word) (s : State) : (raise f fa s).outcome = f :=
  takeFault_outcome f (s.pc - 2) fa s

theorem outcome_advanceI (x : Nibble) (s : State) : (advanceI x s).outcome = s.outcome := by
  rw [advanceI_eq]

/-- A transfer whose effect does not set the outcome, and that changes it, has raised `MemoryOutOfBounds` and nothing else. -/
theorem RangeLeads.raise_of_outcome_ne {n : Nat} {s k t : State} (h : RangeLeads n s k t) (hk : k.outcome = s.outcome)
    (ht : t.outcome ≠ s.outcome) : t = raise .memoryOutOfBounds (recordedAddress .memoryOutOfBounds s) s := by
  obtain ⟨-, rfl⟩ | ⟨-, -, e⟩ := h
  · exact absurd hk ht
  · exact e

/-- An execution that changes the outcome has raised one fault, which its instruction may raise, and has done nothing else (R289). -/
theorem exec_raises_of_outcome_ne {i : Instr} {s t : State} (h : exec i s = .next t) (ht : t.outcome ≠ s.outcome) :
    ∃ f, t = raise f (recordedAddress f s) s ∧ MayRaise i s f := by
  have hl := exec_leads h
  by_cases hw : StatePart.latch.Writer s.cfg.memInc i
  · obtain rfl | ⟨nnn, rfl⟩ | ⟨x, y, n, rfl⟩ | ⟨x, rfl⟩ | ⟨x, rfl⟩ | ⟨x, rfl⟩ := hw
    · obtain ⟨_, rfl⟩ | ⟨hsp, e⟩ := hl
      · exact absurd rfl ht
      · exact ⟨.stackUnderflow, e, .inl ⟨rfl, rfl, hsp⟩⟩
    · obtain ⟨_, rfl⟩ | ⟨hsp, e⟩ := hl
      · exact absurd rfl ht
      · exact ⟨.stackOverflow, e, .inr (.inl ⟨nnn, rfl, rfl, hsp⟩)⟩
    · exact ⟨_, hl.raise_of_outcome_ne rfl ht, .inr (.inr ⟨rfl, .inl ⟨x, y, n, rfl⟩⟩)⟩
    · exact ⟨_, hl.raise_of_outcome_ne rfl ht, .inr (.inr ⟨rfl, .inr (.inl ⟨x, rfl⟩)⟩)⟩
    · exact ⟨_, hl.raise_of_outcome_ne (outcome_advanceI x _) ht, .inr (.inr ⟨rfl, .inr (.inr (.inl ⟨x, rfl⟩))⟩)⟩
    · exact ⟨_, hl.raise_of_outcome_ne (outcome_advanceI x _) ht, .inr (.inr ⟨rfl, .inr (.inr (.inr ⟨x, rfl⟩))⟩)⟩
  · obtain ⟨-, -, -, -, hout⟩ : StatePart.latch.Kept s t := exec_keeps h hw
    exact absurd hout ht

/-- Settles O47: from outcome Ok a fault is a changed outcome, and what was raised is a fault taken at the instruction's address. -/
theorem faultsArePrecise : Obligations.FaultsArePrecise := by
  intro i s t ho h ht
  obtain ⟨f, rfl, hf⟩ := exec_raises_of_outcome_ne h (ho ▸ ht)
  rw [raise_outcome]
  exact ⟨faultTaken_raise f (recordedAddress f s) s, hf⟩

end Sys2Proof.Machine
end
